-- ==== Sys2Proof/Word.lean ====
section
/-! DEFINITION. The word types of GBP and nothing else (spec/00_scope.md R10: every value is unsigned, bit 0 the
least significant). -/

namespace Sys2Proof

/-- `u32`: registers, frame-buffer words, descriptors, queue words (R10, R45). -/
abbrev Word := BitVec 32

/-- One byte of host source memory; also an EVENT8 code (R38, R61). -/
abbrev Byte := BitVec 8

/-- One corrected intensity, GAMMA_BITS = 10 wide (R62, R70). -/
abbrev Intensity := BitVec 10

end Sys2Proof
end

