-- ==== Sys2Proof/Config.lean ====
section
/-! DEFINITION. What the spec leaves OPEN: the build parameters of spec/00_scope.md R8, the constants it fixes, and the
free values, each an opaque constant that no proof can see into. -/

namespace Sys2Proof

/-! ### Constants the spec fixes (spec/00_scope.md R8) -/

/-- BIT_DEPTH, the number of bit-planes (R8). -/
abbrev Config.bitDepth : Nat := 10

/-- GAMMA_MAX = 2^10 - 1 (R8). -/
abbrev Config.gammaMax : Nat := 1023

/-- PW_BASE, the pulse-width basis (R8). -/
abbrev Config.pwBase : Nat := 6

/-- PW_POS, the bit position of the pulse-width field in the descriptor (R8, R65). -/
abbrev Config.pwPos : Nat := 5

/-- OFF_R, OFF_G, OFF_B, the bit offsets of the colour fields in a packed word (R8, R63). -/
abbrev Config.offR : Nat := 0

@[inherit_doc Config.offR]
abbrev Config.offG : Nat := 10

@[inherit_doc Config.offR]
abbrev Config.offB : Nat := 20

/-! ### Build parameters -/

/-- A channel order of source bytes (spec/40_gamma_ingest.md R77). -/
inductive Order where
  | rgb
  | bgr
  deriving DecidableEq, Repr, Inhabited

/-- PINS (R8, R83): the physical pins of the six colour, five row-select, clock, latch and output-enable lines. -/
structure Pins where
  colour : Vector Nat 6
  rowSelect : Vector Nat 5
  clock : Nat
  latch : Nat
  outputEnable : Nat
  deriving DecidableEq, Repr, Inhabited

/-- The OPEN parameters of R8 that are fixed when the block is built. They are state that no step changes (R9, R37), so
a claim about every state is a claim about every build. -/
structure Build where
  /-- GAMMA_LUT (spec/40_gamma_ingest.md R70; read-only state by spec/10_state.md R37). -/
  gammaLut : Vector Intensity 256
  /-- FILLER_WORDS. -/
  fillerWords : Nat
  /-- SER_TX_DEPTH. -/
  serTxDepth : Nat
  /-- SER_RX_DEPTH. -/
  serRxDepth : Nat
  /-- FB_CAPACITY. -/
  fbCapacity : Nat
  /-- AREA_ORDER. -/
  areaOrder : Order
  /-- NUM_CH. -/
  numCh : Nat
  /-- NUM_SM. -/
  numSm : Nat
  /-- PINS; no rule reads a pin number (D40). -/
  pins : Pins
  /-- SRC_ADMIT as the closed address ranges it admits; over a finite address space every predicate is one. -/
  srcAdmit : List (Nat × Nat)
  deriving DecidableEq, Repr, Inhabited

/-- R71: an admissible gamma table starts at 0, ends at GAMMA_MAX and never decreases (its entries are 10 bits wide). -/
def GammaAdmissible (lut : Vector Intensity 256) : Prop :=
  lut[0].toNat = 0 ∧ lut[255].toNat = Config.gammaMax ∧
    ∀ i : Nat, (h : i < 255) → lut[i].toNat ≤ lut[i + 1].toNat

/-- The constraints the spec puts on the parameters: R8, R71, spec/41_scan_program.md R88, spec/70_reset_and_hazards.md
R143. FILLER_WORDS fits its 16-bit field of PARAM (spec/10_state.md R28). -/
structure Build.Admissible (b : Build) : Prop where
  gamma : GammaAdmissible b.gammaLut
  txDepth : 1 ≤ b.serTxDepth
  rxDepth : 1 ≤ b.serRxDepth
  fillerEven : b.fillerWords % 2 = 0
  fillerDepth : b.serTxDepth ≤ b.fillerWords
  fillerField : b.fillerWords < 2 ^ 16
  channels : 4 ≤ b.numCh ∧ b.numCh ≤ 16
  slots : 2 ≤ b.numSm ∧ b.numSm ≤ 4

/-- The largest of the entries 0 to i of a table, from 0 at entry 0. -/
def runningMax (lut : Vector Intensity 256) : Nat → Nat
  | 0 => 0
  | i + 1 => max (runningMax lut i) (lut.toList.getD (i + 1) 0).toNat

/-- The table nearest to `lut` that R71 admits; an admissible table is left as it is. -/
def constrainGamma (lut : Vector Intensity 256) : Vector Intensity 256 :=
  Vector.ofFn fun i => BitVec.ofNat 10 (if i.val = 255 then Config.gammaMax else runningMax lut i.val)

/-- The admissible build nearest to `b`; an admissible build is left as it is (Laws/Config.lean). -/
def Build.constrain (b : Build) : Build :=
  let depth := max 1 (min b.serTxDepth 65534)
  { b with
    gammaLut := constrainGamma b.gammaLut
    serTxDepth := depth
    serRxDepth := max 1 b.serRxDepth
    fillerWords := max ((depth + 1) / 2 * 2) (min (b.fillerWords / 2 * 2) 65534)
    numCh := max 4 (min b.numCh 16)
    numSm := max 2 (min b.numSm 4) }

/-- The parameters of the block before the spec's constraints: no value is known of any of them. -/
opaque Config.rawBuild : Build

/-- The parameters of the block that `State.reset` describes: any admissible build, and nothing else known of it
(notes/assumptions/1.md). -/
def Config.build : Build := Config.rawBuild.constrain

/-! ### Environment inputs and free values -/

/-- FREE_CH at power-on (R8: an environment input); only identifiers below NUM_CH count. -/
opaque Config.freeChannels : List Nat

/-- FREE_SM at power-on (R8: an environment input); only identifiers below NUM_SM count. -/
opaque Config.freeSlots : List Nat

/-- A free draw of a word, one for each draw number: the completion token (spec/41_scan_program.md R90), SINK after reset
(spec/70_reset_and_hazards.md R138), a frame-buffer word whose source bytes the host changed (R146). -/
opaque Config.freeWord : Nat → BitVec 32

/-- The content of frame-buffer word i that the packer has not written since the CREATE with draw number e: any u32
(spec/10_state.md R29, spec/44_driver_control.md R116). -/
opaque Config.freeFbWord : (e : Nat) → (i : Nat) → BitVec 32

/-- The free choice of one of the free identifiers at CREATE (R116). -/
opaque Config.freeIndex : Nat → Nat

/-- The host source memory byte at an address that nothing in the model has written. -/
opaque Config.freeByte : Nat → BitVec 8

/-- `patch_instr(p)`, the instruction word a shift amount stands for on the target (spec/41_scan_program.md R86,
spec/30_encoding.md R67): a pure function of p, its encoding not given. Nor is the word's width, which the source does not
state: 32 bits is the model's choice, and no rule reads the word (notes/assumptions/20.md). -/
opaque Config.patchInstr : BitVec 4 → BitVec 32

/-! ### The reference instance of the spec's test vectors -/

/-- GAMMA_REF[0] to GAMMA_REF[31] (R73). -/
def Config.gammaRef0 : List Intensity :=
  [0, 0, 0, 0, 0, 0, 0, 0, 1, 1, 1, 1, 1, 1, 2, 2, 2, 3, 3, 3, 4, 4, 5, 5, 6, 6, 7, 7, 8, 9, 9, 10]

/-- GAMMA_REF[32] to GAMMA_REF[63] (R73). -/
def Config.gammaRef1 : List Intensity :=
  [11, 11, 12, 13, 14, 15, 16, 16, 17, 18, 19, 20, 21, 23, 24, 25, 26, 27, 28, 30, 31, 32, 34, 35, 36, 38, 39,
   41, 42, 44, 46, 47]

/-- GAMMA_REF[64] to GAMMA_REF[95] (R73). -/
def Config.gammaRef2 : List Intensity :=
  [49, 51, 52, 54, 56, 58, 60, 61, 63, 65, 67, 69, 71, 73, 76, 78, 80, 82, 84, 87, 89, 91, 94, 96, 98, 101, 103,
   106, 109, 111, 114, 117]

/-- GAMMA_REF[96] to GAMMA_REF[127] (R73). -/
def Config.gammaRef3 : List Intensity :=
  [119, 122, 125, 128, 130, 133, 136, 139, 142, 145, 148, 151, 155, 158, 161, 164, 167, 171, 174, 177, 181, 184,
   188, 191, 195, 198, 202, 206, 209, 213, 217, 221]

/-- GAMMA_REF[128] to GAMMA_REF[159] (R73). -/
def Config.gammaRef4 : List Intensity :=
  [225, 228, 232, 236, 240, 244, 248, 252, 257, 261, 265, 269, 274, 278, 282, 287, 291, 295, 300, 304, 309, 314,
   318, 323, 328, 333, 337, 342, 347, 352, 357, 362]

/-- GAMMA_REF[160] to GAMMA_REF[191] (R73). -/
def Config.gammaRef5 : List Intensity :=
  [367, 372, 377, 382, 387, 393, 398, 403, 408, 414, 419, 425, 430, 436, 441, 447, 452, 458, 464, 470, 475, 481,
   487, 493, 499, 505, 511, 517, 523, 529, 535, 542]

/-- GAMMA_REF[192] to GAMMA_REF[223] (R73). -/
def Config.gammaRef6 : List Intensity :=
  [548, 554, 561, 567, 573, 580, 586, 593, 599, 606, 613, 619, 626, 633, 640, 647, 653, 660, 667, 674, 681, 689,
   696, 703, 710, 717, 725, 732, 739, 747, 754, 762]

/-- GAMMA_REF[224] to GAMMA_REF[255] (R73). -/
def Config.gammaRef7 : List Intensity :=
  [769, 777, 784, 792, 800, 807, 815, 823, 831, 839, 847, 855, 863, 871, 879, 887, 895, 903, 912, 920, 928, 937,
   945, 954, 962, 971, 979, 988, 997, 1005, 1014, 1023]

/-- GAMMA_REF (R73), the spec's own test instance and no hardware's table: a claim that needs it holds for it only. -/
def Config.gammaRef : Vector Intensity 256 :=
  ⟨(gammaRef0 ++ gammaRef1 ++ gammaRef2 ++ gammaRef3 ++ gammaRef4 ++ gammaRef5 ++ gammaRef6 ++ gammaRef7).toArray,
    by decide +kernel⟩

/-- The parameters of spec/95_test_vectors.md's conventions (FILLER_WORDS = 8, FB_CAPACITY = 4096, GAMMA_REF, P3's queue
depths 4 and 1), with every source address admitted. For tests only: `State.reset` does not use it. -/
def Config.vectorBuild : Build where
  gammaLut := gammaRef
  fillerWords := 8
  serTxDepth := 4
  serRxDepth := 1
  fbCapacity := 4096
  areaOrder := .rgb
  numCh := 12
  numSm := 4
  pins := ⟨⟨#[0, 1, 2, 3, 4, 5], rfl⟩, ⟨#[6, 7, 8, 9, 10], rfl⟩, 11, 12, 13⟩
  srcAdmit := [(0, 0xFFFFFFFF)]

end Sys2Proof
end

