-- ==== Sys2Proof/Syntax.lean ====
section
/-! DEFINITION. The operations of GBP as syntax: one constructor of `Instr` per row of spec/opcode_table.json, the
encoded forms of spec/30_encoding.md R55, and the agents of spec/00_scope.md R7. -/

namespace Sys2Proof

/-- SIZE of a bus transaction, BUS header bits [17:16] (R60): 0, 1, 2 and 3 in this order. -/
inductive Width where
  | bits8
  | bits16
  | bits32
  | reserved
  deriving DecidableEq, Repr

/-- The five host commands of CMD32 (R57). -/
inductive Command where
  | create
  | start
  | update
  | updateBgr
  | updateArea
  deriving DecidableEq, Repr

/-- One operation of the block, one constructor per row of spec/opcode_table.json. A command takes no operand in its
word (R56); a bus transaction names its width and byte offset and, for a write, carries its data value beside the
header (R60); PATCH_SHIFT takes the new bit-plane (R86); every other internal operation takes none (R61). The byte
offset is 32 bits wide, enough for the whole FB window of every legal panel (R17, R40), where R60's header names its low
16 bits: the model's choice (notes/assumptions/28.md). -/
inductive Instr where
  | create
  | start
  | update
  | updateBgr
  | updateArea
  | busWr (size : Width) (offset : Word) (value : Word)
  | busRd (size : Width) (offset : Word)
  | packWrite
  | xferPixel
  | xferFiller
  | xferRow
  | xferOedone
  | seqStep
  | patchShift (plane : BitVec 4)
  | serDataPop
  | serRowTake
  | serRowDone
  deriving DecidableEq, Repr

/-- Who takes the step of an operation (R7, R61): the block's own agents, the host, and the two external
serializers. -/
inductive Agent where
  | host
  | packer
  | channelPixel
  | channelFiller
  | channelRow
  | channelOedone
  | sequencer
  | serializerData
  | serializerRow
  deriving DecidableEq, Repr

/-- The agent of each operation (R3, R61). -/
def Instr.agent : Instr → Agent
  | .create | .start | .update | .updateBgr | .updateArea => .host
  | .busWr _ _ _ | .busRd _ _ => .host
  | .packWrite => .packer
  | .xferPixel => .channelPixel
  | .xferFiller => .channelFiller
  | .xferRow => .channelRow
  | .xferOedone => .channelOedone
  | .seqStep | .patchShift _ => .sequencer
  | .serDataPop => .serializerData
  | .serRowTake | .serRowDone => .serializerRow

/-- An encoded operation (R55): which form it has is known from where it stands, since a decoder reads exactly one
32-bit word for CMD32 and BUS and one byte for EVENT8 and the forms share bit patterns. `data` is the value a bus write
carries beside its header (R60); `operand` is PATCH_SHIFT's operand, carried beside its code (notes/assumptions/4.md).
Both are ignored by every encoding that has no such operand. `high` is bits [31:16] of a transaction's byte offset, which
R60's header has no room for: 0 for every offset a header names alone (notes/assumptions/28.md). -/
inductive Encoded where
  | cmd32 (word : Word)
  | bus (header : Word) (data : Word) (high : BitVec 16)
  | event8 (code : Byte) (operand : BitVec 4)
  deriving DecidableEq, Repr

/-- Why the decoder reads no operation. -/
inductive DecodeError where
  /-- A CMD32 word with a reserved OP or a nonzero RES field (R58). -/
  | reservedCommand
  /-- A BUS header whose bits [30:18] are not 0 (R60). -/
  | malformedHeader
  /-- An EVENT8 code that names nothing (R61). -/
  | unnamedEvent
  /-- PATCH_SHIFT with an operand that is no bit-plane, 10 to 15 (R86). -/
  | badPlane
  deriving DecidableEq, Repr

end Sys2Proof
end

