-- ==== Sys2Proof/WellFormed.lean ====
section
/-! DEFINITION. Which operations are well formed: the one check the types do not make. -/

namespace Sys2Proof

/-- PATCH_SHIFT's operand is a bit-plane, `0 <= p < BIT_DEPTH` = 10 (spec/41_scan_program.md R86). Every other operand is
legal at every value of its type: a width or offset that a bus access may not have is no malformed operation, it faults
BAD_REG (spec/20_memory.md R43). -/
def Instr.wellFormed : Instr → Bool
  | .create | .start | .update | .updateBgr | .updateArea => true
  | .busWr _ _ _ => true
  | .busRd _ _ => true
  | .packWrite => true
  | .xferPixel | .xferFiller | .xferRow | .xferOedone => true
  | .seqStep => true
  | .patchShift plane => decide (plane.toNat < 10)
  | .serDataPop | .serRowTake | .serRowDone => true

end Sys2Proof
end

