-- ==== Sys2Proof/Decode.lean ====
section
/-! DEFINITION. The decoder, total on every encoded form and rejecting by name, and after it the encoder, both written
from spec/30_encoding.md R56, R57, R60 and R61. -/

namespace Sys2Proof

/-- A field at a bit position of a word (spec/00_scope.md R10). -/
def placeField {n : Nat} (pos : Nat) (v : BitVec n) : Word := v.setWidth 32 <<< pos

/-- CMD32 (R56, R57, R58): OP in [3:0], RES in [31:4] must be 0; OP 0x0 and 0x6 to 0xF are reserved. -/
def decodeCommand (w : Word) : Option Command :=
  if w.extractLsb' 4 28 = 0 then
    match (w.extractLsb' 0 4).toNat with
    | 1 => some .create
    | 2 => some .start
    | 3 => some .update
    | 4 => some .updateBgr
    | 5 => some .updateArea
    | _ => none
  else none

/-- The operation a command word stands for. -/
def Command.instr : Command → Instr
  | .create => .create
  | .start => .start
  | .update => .update
  | .updateBgr => .updateBgr
  | .updateArea => .updateArea

/-- SIZE (R60): 0 = 8-bit, 1 = 16-bit, 2 = 32-bit, 3 = reserved. -/
def widthOfBits (b : BitVec 2) : Width :=
  match b.toNat with
  | 0 => .bits8
  | 1 => .bits16
  | 2 => .bits32
  | _ => .reserved

/-- The byte offset of a bus transaction: OFFSET, bits [15:0] of its header (R60), below the bits carried beside it
(notes/assumptions/28.md). -/
def busOffset (header : Word) (high : BitVec 16) : Word := placeField 0 (header.extractLsb' 0 16) ||| placeField 16 high

/-- BUS header (R60): DIR [31], 0 in [30:18], SIZE [17:16], OFFSET [15:0]. -/
def decodeBus (header data : Word) (high : BitVec 16) : Except DecodeError Instr :=
  if header.extractLsb' 18 13 = 0 then
    if header.getLsbD 31 then
      .ok (.busWr (widthOfBits (header.extractLsb' 16 2)) (busOffset header high) data)
    else
      .ok (.busRd (widthOfBits (header.extractLsb' 16 2)) (busOffset header high))
  else .error .malformedHeader

/-- EVENT8 codes (R61); PATCH_SHIFT's operand is a bit-plane (R86). -/
def decodeEvent (code : Byte) (operand : BitVec 4) : Except DecodeError Instr :=
  match code.toNat with
  | 0x10 => .ok .packWrite
  | 0x20 => .ok .xferPixel
  | 0x21 => .ok .xferFiller
  | 0x22 => .ok .xferRow
  | 0x23 => .ok .xferOedone
  | 0x30 => .ok .seqStep
  | 0x31 => if operand.toNat < 10 then .ok (.patchShift operand) else .error .badPlane
  | 0x40 => .ok .serDataPop
  | 0x41 => .ok .serRowTake
  | 0x42 => .ok .serRowDone
  | _ => .error .unnamedEvent

/-- The decoder (R55): the form says which table applies; no mode bit changes decoding. -/
def decode : Encoded → Except DecodeError Instr
  | .cmd32 word =>
    match decodeCommand word with
    | some c => .ok c.instr
    | none => .error .reservedCommand
  | .bus header data high => decodeBus header data high
  | .event8 code operand => decodeEvent code operand

/-! ### The encoder -/

/-- OP of each command (R57), zero-extended to the whole word since RES is 0 (R56). -/
def encodeCommand : Command → Word
  | .create => 0x00000001
  | .start => 0x00000002
  | .update => 0x00000003
  | .updateBgr => 0x00000004
  | .updateArea => 0x00000005

/-- SIZE bits of each width (R60). -/
def bitsOfWidth : Width → BitVec 2
  | .bits8 => 0
  | .bits16 => 1
  | .bits32 => 2
  | .reserved => 3

/-- A BUS header from its fields: DIR at 31, SIZE at 16, OFFSET at 0, the bits between them 0 (R60). -/
def encodeBus (write : Bool) (size : Width) (offset : BitVec 16) : Word :=
  placeField 31 (BitVec.ofBool write) ||| placeField 16 (bitsOfWidth size) ||| placeField 0 offset

/-- The encoded form of an operation. A read drives no data and every event but PATCH_SHIFT has no operand, so those
lanes are 0. -/
def encode : Instr → Encoded
  | .create => .cmd32 (encodeCommand .create)
  | .start => .cmd32 (encodeCommand .start)
  | .update => .cmd32 (encodeCommand .update)
  | .updateBgr => .cmd32 (encodeCommand .updateBgr)
  | .updateArea => .cmd32 (encodeCommand .updateArea)
  | .busWr size offset value => .bus (encodeBus true size (offset.extractLsb' 0 16)) value (offset.extractLsb' 16 16)
  | .busRd size offset => .bus (encodeBus false size (offset.extractLsb' 0 16)) 0 (offset.extractLsb' 16 16)
  | .packWrite => .event8 0x10 0
  | .xferPixel => .event8 0x20 0
  | .xferFiller => .event8 0x21 0
  | .xferRow => .event8 0x22 0
  | .xferOedone => .event8 0x23 0
  | .seqStep => .event8 0x30 0
  | .patchShift plane => .event8 0x31 plane
  | .serDataPop => .event8 0x40 0
  | .serRowTake => .event8 0x41 0
  | .serRowDone => .event8 0x42 0

/-! ### Words numbered as spec/opcode_table.json numbers them -/

/-- The encoded form a table row's word stands for. An 8-bit row is EVENT8, its operand lane the bits above the code.
A 32-bit row is CMD32 or BUS, whose patterns overlap: CMD32 words 1 to 5 are also headers of a narrow read. A word
that is a command is read as CMD32, any other as BUS with the bits above the header its data lane and, above that, the
upper bits of its offset (notes/assumptions/3.md, 28.md). -/
def tableForm (nbits w : Nat) : Encoded :=
  if nbits ≤ 8 then .event8 (BitVec.ofNat 8 w) (BitVec.ofNat 4 (w >>> 8))
  else if (decodeCommand (BitVec.ofNat 32 w)).isSome && decide (w < 2 ^ 32) then .cmd32 (BitVec.ofNat 32 w)
  else .bus (BitVec.ofNat 32 w) (BitVec.ofNat 32 (w >>> 32)) (BitVec.ofNat 16 (w >>> 64))

/-- The instruction this decoder reads from a table row's word. -/
def decodeTableWord (nbits w : Nat) : Option Instr :=
  (decode (tableForm nbits w)).toOption

end Sys2Proof
end

