-- ==== Sys2Proof/Machine/State.lean ====
section
/-! DEFINITION. Everything the spec gives the block as state (spec/10_state.md R15 to R37), the serializers' and the
host's side of it (R87 to R90, R39, R60, R116), the reasons a step can stop, and the state right after reset
(spec/70_reset_and_hazards.md R138). Plain data throughout. -/

namespace Sys2Proof.Machine

/-! ### Reasons a step stops -/

/-- Why the machine stops. The block's own faults are not here: they are recorded in STATUS and CAUSE and the run goes
on (spec/60_exceptions.md R122). -/
inductive Fault where
  /-- A transfer whose record names a location that spec/42_transfer_chain.md R97 gives no read or no write for (READ of
  SINK, DTX, RTX or of an empty RRX; WRITE to FB, ZERO, DESC or RRX). Raised by the four XFER operations. Safe: the
  spec gives no effect, and no state that keeps `Inv` has such a record. -/
  | noTransferRule
  /-- A frame-buffer word at or beyond W x H, which is no location (spec/10_state.md R32). Raised by the XFER operations
  and PACK_WRITE. Safe: no state that keeps `Inv` names such a word. -/
  | noFbWord
  deriving DecidableEq, Repr

/-- Why the model gives a step no meaning. -/
inductive Refusal where
  /-- An operation whose meaning is not written yet, by its mnemonic. Raised by exec only. Safe. -/
  | notModelled (mnemonic : String)
  /-- The next input is no encoded operation: a malformed BUS header, an unnamed EVENT8 code or a PATCH_SHIFT of no
  plane, which nothing ever issues (spec/93_implementation_defined.md row 32). Raised by step. Safe. -/
  | undecodable (reason : DecodeError)
  deriving DecidableEq, Repr

/-! ### Parts of the state -/

/-- Cause codes 0 to 12 in order (spec/60_exceptions.md R121). -/
inductive Cause where
  | noFault
  | resource
  | reinit
  | notCreated
  | restart
  | badLength
  | badArea
  | badGeometry
  | badCmd
  | badReg
  | busy
  | badSrc
  | internal
  deriving DecidableEq, Repr

/-- The seven flags of STATUS, bits 0 to 6 in order (spec/10_state.md R18). The host reads them as one word, whose other
bits read 0, and never writes them. -/
structure Status where
  created : Bool
  running : Bool
  busy : Bool
  fault : Bool
  halted : Bool
  intEn : Bool
  intPend : Bool
  deriving DecidableEq, Repr

/-- CFG (R23): W [15:0] and H [31:16]. -/
structure Geometry where
  w : BitVec 16
  h : BitVec 16
  deriving DecidableEq, Repr

/-- SCANPOS (R24): ROW [4:0] and PLANE [11:8]. -/
structure ScanPos where
  row : BitVec 5
  plane : BitVec 4
  deriving DecidableEq, Repr

/-- ROSTER (R27): the identifiers CREATE claims. -/
structure Roster where
  chPixel : BitVec 4
  chFiller : BitVec 4
  chRow : BitVec 4
  chOedone : BitVec 4
  smData : BitVec 2
  smRow : BitVec 2
  valid : Bool
  deriving DecidableEq, Repr

/-- The interface registers (R17). -/
inductive Reg where
  | cmd
  | status
  | cause
  | geom
  | srcAddr
  | srcLen
  | areaP1
  | areaP2
  | cfg
  | scanpos
  | desc
  | shift
  | roster
  | param
  deriving DecidableEq, Repr

/-- What a mapped offset of the register window names (R17, R40). -/
inductive Target where
  | reg (r : Reg)
  | fbWord (i : Nat)
  deriving DecidableEq, Repr

/-- A transfer location (R32). FB(i) may stand one past the last word after a run (spec/42_transfer_chain.md R98). -/
inductive Loc where
  | fb (i : Nat)
  | zero
  | desc
  | sink
  | dtx
  | rtx
  | rrx
  deriving DecidableEq, Repr, Inhabited

/-- The four channels (R32). -/
inductive ChanId where
  | pixel
  | filler
  | row
  | oedone
  deriving DecidableEq, Repr, Inhabited

/-- PACE: the condition before each single transfer (R34). -/
inductive Pace where
  | dtxSpace
  | rtxSpace
  | rrxData
  deriving DecidableEq, Repr, Inhabited

/-- A channel record (R32). -/
structure Channel where
  read : Loc
  readInc : Bool
  write : Loc
  writeInc : Bool
  count : Nat
  remain : Nat
  active : Bool
  chain : Option ChanId
  pace : Pace
  irq : Bool
  deriving DecidableEq, Repr, Inhabited

/-- A pending write of the packer job (R35, spec/40_gamma_ingest.md R78): the frame-buffer word, and the pixel by its
source base address, pixel number and channel order. `stale` says that the host changed one of its source bytes after
the command was accepted (spec/70_reset_and_hazards.md R146). -/
structure PackEntry where
  fbIndex : Nat
  base : Nat
  pixel : Nat
  order : Order
  stale : Bool
  deriving DecidableEq, Repr

/-- The row serializer's phase (spec/41_scan_program.md R89). -/
inductive RowPhase where
  | idle
  | busy (d : Word)
  deriving DecidableEq, Repr

/-- The colour lines a data word drives (R87): c0 for TOP, c1 for BOTTOM. -/
inductive Lane where
  | top
  | bottom
  deriving DecidableEq, Repr

/-- One record of the data serializer's output log DS (R87). -/
structure DataRecord where
  word : Word
  shamt : BitVec 4
  lane : Lane
  deriving DecidableEq, Repr

/-- One entry of the interleaving (spec/00_scope.md R7, R12): which agent or outside party moves next, and how. -/
inductive Input where
  /-- An operation in its encoded form: a command word written to CMD, a bus transaction, an agent's turn. -/
  | op (e : Encoded)
  /-- The host writes one byte of its source memory (R146, R151). -/
  | store (address : BitVec 32) (value : Byte)
  /-- The platform says which channels and slots are free (R116's FREE_CH and FREE_SM). -/
  | pools (channels slots : List Nat)
  /-- A platform reset of the block (R138). -/
  | reset
  deriving DecidableEq, Repr

/-! ### The state -/

/-- The machine's state; INVENTORY.md lists each field with its rule and reset value. -/
structure State where
  /-- The build parameters of spec/00_scope.md R8, GAMMA_LUT among them (R37); no step changes them (R9). -/
  build : Build
  /-- STATUS (R18). -/
  status : Status
  /-- CAUSE.CODE (R19). -/
  cause : Cause
  /-- GEOM (R20). -/
  geom : Word
  /-- SRC_ADDR (R21). -/
  srcAddr : Word
  /-- SRC_LEN (R21). -/
  srcLen : Word
  /-- AREA_P1 (R22). -/
  areaP1 : Word
  /-- AREA_P2 (R22). -/
  areaP2 : Word
  /-- CFG (R23). -/
  cfg : Geometry
  /-- SCANPOS (R24). -/
  scan : ScanPos
  /-- DESC (R25). -/
  desc : Word
  /-- SHIFT.SHAMT (R26). -/
  shamt : BitVec 4
  /-- ROSTER (R27). -/
  roster : Roster
  /-- FB (R29): the words the packer has written since CREATE, indices strictly rising; every other word is
  `Config.freeFbWord fbEpoch i`. -/
  fb : List (Nat × Word)
  /-- The draw number of FB's unspecified content (R29, R116). -/
  fbEpoch : Nat
  /-- SINK (R31). -/
  sink : Word
  /-- CH_PIXEL's record (R32). -/
  chPixel : Channel
  /-- CH_FILLER's record (R32). -/
  chFiller : Channel
  /-- CH_ROW's record (R32). -/
  chRow : Channel
  /-- CH_OEDONE's record (R32). -/
  chOedone : Channel
  /-- DTX, head first (R33). -/
  dtx : List Word
  /-- RTX, head first (R33). -/
  rtx : List Word
  /-- RRX, head first (R33). -/
  rrx : List Word
  /-- PJ, head first (R35). -/
  pj : List PackEntry
  /-- The row serializer's phase (R36, R89). -/
  phase : RowPhase
  /-- The number of words the data serializer has popped (R87, R138). -/
  popped : Nat
  /-- The data serializer's output log DS, oldest first (R87). -/
  ds : List DataRecord
  /-- The row serializer's output log RS, oldest first (R89). -/
  rs : List Word
  /-- Host source memory (spec/20_memory.md R38): the bytes known, addresses strictly rising; every other byte is
  `Config.freeByte`. -/
  mem : List Host.Cell
  /-- FREE_CH: the channel identifiers free in the platform's pool (R116, R134). -/
  freeCh : List Nat
  /-- FREE_SM: the serializer slots free in the platform's pool (R116, R134). -/
  freeSm : List Nat
  /-- The value the last bus read returned to the host (R60, R115). -/
  rdata : Word
  /-- The model's own: how many free draws have been made. -/
  draws : Nat
  /-- The model's own: what happens next, in order (R12's interleaving). -/
  input : List Input
  deriving DecidableEq, Repr

/-! ### Reset -/

/-- The identifiers below `limit` that `wanted` lists and `claimed` does not: a pool as a rising list without repeats. -/
def poolOf (limit : Nat) (wanted claimed : List Nat) : List Nat :=
  (List.range limit).filter fun i => wanted.contains i && !claimed.contains i

end Sys2Proof.Machine

/-- The unspecified content of a channel record before CREATE configures it, one for each draw number (R32): a free
value (notes/assumptions/13.md). -/
opaque Sys2Proof.Config.freeChannel : Nat → Sys2Proof.Machine.Channel

namespace Sys2Proof.Machine

/-- A channel record right after reset (R138): inactive with nothing to move, its other fields unspecified. -/
def Channel.afterReset (draw : Nat) : Channel :=
  { Config.freeChannel draw with active := false, remain := 0 }

/-- The block right after reset (R138), for given parameters and free pools, with SINK, the
frame buffer's unspecified words and the unspecified channel fields taken from the draws at and after `draw`. -/
def State.afterReset (build : Build) (freeCh freeSm : List Nat) (draw : Nat) : State where
  build := build
  status := ⟨false, false, false, false, false, false, false⟩
  cause := .noFault
  geom := 0
  srcAddr := 0
  srcLen := 0
  areaP1 := 0
  areaP2 := 0
  cfg := ⟨0, 0⟩
  scan := ⟨0, 0⟩
  desc := 0x000000C0
  shamt := 0
  roster := ⟨0, 0, 0, 0, 0, 0, false⟩
  fb := []
  fbEpoch := draw
  sink := Config.freeWord draw
  chPixel := .afterReset (draw + 1)
  chFiller := .afterReset (draw + 2)
  chRow := .afterReset (draw + 3)
  chOedone := .afterReset (draw + 4)
  dtx := []
  rtx := []
  rrx := []
  pj := []
  phase := .idle
  popped := 0
  ds := []
  rs := []
  mem := []
  freeCh := freeCh
  freeSm := freeSm
  rdata := 0
  draws := draw + 5
  input := []

/-- The machine right after reset. -/
def State.reset : State :=
  .afterReset Config.build
    (poolOf Config.build.numCh Config.freeChannels [])
    (poolOf Config.build.numSm Config.freeSlots []) 0

end Sys2Proof.Machine
end

