-- ==== Sys2Proof/Machine/Flags.lean ====
section
/-! DEFINITION. STATUS and CAUSE as the host reads them, and each flag's own update (spec/10_state.md R18, R19;
spec/60_exceptions.md R121, R127, R128). -/

namespace Sys2Proof.Machine

/-- STATUS as a word (R18): the seven flags in bits 0 to 6, bits [31:7] 0. -/
def Status.word (f : Status) : Word :=
  placeField 0 (BitVec.ofBool f.created) ||| placeField 1 (BitVec.ofBool f.running) |||
    placeField 2 (BitVec.ofBool f.busy) ||| placeField 3 (BitVec.ofBool f.fault) |||
    placeField 4 (BitVec.ofBool f.halted) ||| placeField 5 (BitVec.ofBool f.intEn) |||
    placeField 6 (BitVec.ofBool f.intPend)

/-- The cause codes (R121). -/
def Cause.code : Cause → BitVec 4
  | .noFault => 0
  | .resource => 1
  | .reinit => 2
  | .notCreated => 3
  | .restart => 4
  | .badLength => 5
  | .badArea => 6
  | .badGeometry => 7
  | .badCmd => 8
  | .badReg => 9
  | .busy => 10
  | .badSrc => 11
  | .internal => 12

/-- CAUSE as a word (R19): CODE in [3:0], the rest 0. -/
def Cause.word (c : Cause) : Word := placeField 0 c.code

/-- The OE-done event becomes pending (R127). -/
def setIntPend (s : State) : State := { s with status := { s.status with intPend := true } }

/-- Step 1 of the handler: acknowledge the event (R128). -/
def clearIntPend (s : State) : State := { s with status := { s.status with intPend := false } }

/-- BUSY as an accepted ingest command or the packer sets it (R18). -/
def setBusy (b : Bool) (s : State) : State := { s with status := { s.status with busy := b } }

/-- SEQ_STEP is enabled when RUNNING, INT_EN and INT_PEND are all 1 (R127). -/
def eventEnabled (s : State) : Bool := s.status.running && s.status.intEn && s.status.intPend

end Sys2Proof.Machine
end

