-- ==== Sys2Proof/Machine/Memory.lean ====
section
/-! DEFINITION. Reading and writing the two addressed stores of the model, host source memory (spec/20_memory.md R38) and
the frame buffer (spec/10_state.md R29), both lists of (key, value) pairs in one canonical form: keys strictly rising, a
key listed exactly when something has written it. What an unlisted key reads as is a free value, so no listed entry
equals it by any proof. -/

namespace Sys2Proof.Machine

/-- The value listed at a key. -/
def cellRead {α : Type} (key : Nat) : List (Nat × α) → Option α
  | [] => none
  | (k, v) :: rest => if key = k then some v else cellRead key rest

/-- The list with `value` at `key`, keys kept rising. -/
def cellWrite {α : Type} (key : Nat) (value : α) : List (Nat × α) → List (Nat × α)
  | [] => [(key, value)]
  | (k, v) :: rest =>
    if key < k then (key, value) :: (k, v) :: rest
    else if key = k then (key, value) :: rest
    else (k, v) :: cellWrite key value rest

/-- Keys strictly rising, and all of them below `bound`. -/
def cellsWf {α : Type} (bound : Nat) : List (Nat × α) → Bool
  | [] => true
  | (k, _) :: rest => decide (k < bound) && rest.all (fun c => decide (k < c.1)) && cellsWf bound rest

/-- The canonical form of host source memory: byte addresses 0 to 2^32 - 1, strictly rising (R38). -/
def Memory.wf (m : List Host.Cell) : Bool := cellsWf (2 ^ 32) m

/-- The canonical form of the frame buffer: indices of words in use, strictly rising (R29). -/
def FrameBuffer.wf (words : Nat) (fb : List (Nat × Word)) : Bool := cellsWf words fb

/-- What a byte of host source memory that nothing has written reads as: a free value, the same at every read
(R47). -/
def unlistedByte (address : Nat) : Byte := Config.freeByte address

/-- What a frame-buffer word that the packer has not written since CREATE reads as: any u32, the same at every read
(R29, R47). -/
def unlistedFbWord (epoch i : Nat) : Word := Config.freeFbWord epoch i

/-- `MemRead(addr, 1)` (spec/00_scope.md R11). -/
def memRead (address : Nat) (s : State) : Byte :=
  (cellRead address s.mem).getD (unlistedByte address)

/-- `FB[i]` (R11). -/
def fbRead (i : Nat) (s : State) : Word :=
  (cellRead i s.fb).getD (unlistedFbWord s.fbEpoch i)

/-- `FB[i] <- v`, one write of a whole word (R46). -/
def fbWrite (i : Nat) (v : Word) (s : State) : State :=
  { s with fb := cellWrite i v s.fb }

/-- SRC_ADMIT (R39): whether the platform lets the packer read a byte address. No address at or beyond 2^32 exists
(R38). -/
def admits (b : Build) (address : Nat) : Bool :=
  decide (address < 2 ^ 32) && b.srcAdmit.any fun range => decide (range.1 ≤ address) && decide (address ≤ range.2)

end Sys2Proof.Machine
end

