-- ==== Sys2Proof/Machine/Operands.lean ====
section
/-! DEFINITION. Where operands come from: the argument registers' fields (spec/30_encoding.md R59), the register window
(spec/10_state.md R17), the frame-buffer layout, the packed word and the descriptor, and the packer's jobs. -/

namespace Sys2Proof.Machine

/-! ### Argument fields and geometry -/

/-- Bits [15:0] of an argument register, zero-extended (R59). -/
def lowHalf (w : Word) : Nat := (w.extractLsb' 0 16).toNat

/-- Bits [31:16] of an argument register, zero-extended (R59). -/
def highHalf (w : Word) : Nat := (w.extractLsb' 16 16).toNat

/-- W, latched in CFG (spec/10_state.md R23). -/
def State.width (s : State) : Nat := s.cfg.w.toNat

/-- H, latched in CFG (R23). -/
def State.height (s : State) : Nat := s.cfg.h.toNat

/-- HALF = H/2, the number of row addresses (spec/00_scope.md R8). -/
def State.half (s : State) : Nat := s.height / 2

/-- W x H, the number of frame-buffer words in use (spec/10_state.md R29). -/
def State.fbWords (s : State) : Nat := s.width * s.height

/-- The legal geometries (spec/44_driver_control.md R117). -/
def legalGeometry (capacity w h : Nat) : Bool :=
  decide (1 ≤ w) && decide (2 ≤ h) && decide (h % 2 = 0) && decide (h ≤ 64) && decide (w * h ≤ capacity)

/-! ### The register window -/

/-- Register names by byte offset (spec/10_state.md R17). -/
def regAt (offset : Nat) : Option Reg :=
  match offset with
  | 0x000 => some .cmd
  | 0x004 => some .status
  | 0x008 => some .cause
  | 0x00C => some .geom
  | 0x010 => some .srcAddr
  | 0x014 => some .srcLen
  | 0x018 => some .areaP1
  | 0x01C => some .areaP2
  | 0x020 => some .cfg
  | 0x024 => some .scanpos
  | 0x028 => some .desc
  | 0x02C => some .shift
  | 0x030 => some .roster
  | 0x034 => some .param
  | _ => none

/-- What a 32-bit access at an offset reaches (R17, spec/20_memory.md R43): nothing where the offset is no multiple of 4
or is unmapped. The FB window is 0x1000 + 4i for i < W x H, so it is empty before CREATE. -/
def targetAt (offset : Nat) (s : State) : Option Target :=
  if offset % 4 = 0 then
    match regAt offset with
    | some r => some (.reg r)
    | none =>
      if 0x1000 ≤ offset ∧ (offset - 0x1000) / 4 < s.fbWords then some (.fbWord ((offset - 0x1000) / 4)) else none
  else none

/-- ROSTER as a word (R27). -/
def Roster.word (r : Roster) : Word :=
  placeField 0 r.chPixel ||| placeField 4 r.chFiller ||| placeField 8 r.chRow ||| placeField 12 r.chOedone |||
    placeField 16 r.smData ||| placeField 18 r.smRow ||| placeField 31 (BitVec.ofBool r.valid)

/-- CFG as a word (R23). -/
def Geometry.word (g : Geometry) : Word := placeField 0 g.w ||| placeField 16 g.h

/-- SCANPOS as a word (R24): ROW [4:0], PLANE [11:8], the rest 0. -/
def ScanPos.word (p : ScanPos) : Word := placeField 0 p.row ||| placeField 8 p.plane

/-- PARAM (R28): FILLER_WORDS [15:0], BIT_DEPTH [19:16], the rest 0. -/
def paramWord (b : Build) : Word :=
  placeField 0 (BitVec.ofNat 16 b.fillerWords) ||| placeField 16 (BitVec.ofNat 4 Config.bitDepth)

/-- The value of a register as the host reads it (R17 to R28). CMD is write-only and reads 0. -/
def readReg (r : Reg) (s : State) : Word :=
  match r with
  | .cmd => 0
  | .status => s.status.word
  | .cause => s.cause.word
  | .geom => s.geom
  | .srcAddr => s.srcAddr
  | .srcLen => s.srcLen
  | .areaP1 => s.areaP1
  | .areaP2 => s.areaP2
  | .cfg => s.cfg.word
  | .scanpos => s.scan.word
  | .desc => s.desc
  | .shift => placeField 0 s.shamt
  | .roster => s.roster.word
  | .param => paramWord s.build

/-- A write of one of the five RW registers (R17, spec/44_driver_control.md R114); CMD and the RO registers have no value
to write. -/
def writeArgument (r : Reg) (v : Word) (s : State) : Option State :=
  match r with
  | .geom => some { s with geom := v }
  | .srcAddr => some { s with srcAddr := v }
  | .srcLen => some { s with srcLen := v }
  | .areaP1 => some { s with areaP1 := v }
  | .areaP2 => some { s with areaP2 := v }
  | .cmd | .status | .cause | .cfg | .scanpos | .desc | .shift | .roster | .param => none

/-! ### The packed word, the frame-buffer layout and the descriptor -/

/-- GAMMA_LUT[i] (spec/40_gamma_ingest.md R70, R72): every 8-bit index names an entry. -/
def gamma (b : Build) (i : Byte) : Intensity := b.gammaLut[i.toNat]'i.isLt

/-- `pack(r, g, b)` (R63, R74). -/
def pack (bd : Build) (r g b : Byte) : Word :=
  placeField Config.offB (gamma bd b) ||| placeField Config.offG (gamma bd g) ||| placeField Config.offR (gamma bd r)

/-- `fbindex(x, y)` for a panel W wide with HALF row addresses (R75). -/
def fbIndex (w half x y : Nat) : Nat :=
  if y < half then 2 * (y * w + x) else 2 * ((y - half) * w + x) + 1

/-- `desc(row, plane)` (spec/43_scan_stepper.md R103, R65). -/
def descOf (row : BitVec 5) (plane : BitVec 4) : Word :=
  placeField 0 row ||| placeField Config.pwPos (BitVec.ofNat 32 Config.pwBase <<< plane.toNat)

/-- `row(d)` (R66): the row-select lines a descriptor drives (R89). -/
def descRow (d : Word) : BitVec 5 := d.extractLsb' 0 5

/-- `pw(d)` (R66): the output-enable pulse width a descriptor encodes (R89). -/
def descPw (d : Word) : BitVec 27 := d.extractLsb' 5 27

/-- The colour bit of a popped word at one field offset under a shift (spec/41_scan_program.md R87). -/
def colourBit (offset : Nat) (r : DataRecord) : Bool := r.word.getLsbD (offset + r.shamt.toNat)

/-- The colour bits (R, G, B) a popped word puts on its lane's lines (R87). -/
def colourBits (r : DataRecord) : Bool × Bool × Bool :=
  (colourBit Config.offR r, colourBit Config.offG r, colourBit Config.offB r)

/-- While output-enable is asserted, the row-select lines and the pulse width in force (R89). -/
def panelOutput (s : State) : Option (BitVec 5 × BitVec 27) :=
  match s.phase with
  | .idle => none
  | .busy d => some (descRow d, descPw d)

/-- The data program's operative instruction as the shift patch leaves it (R85, R86), its width the model's choice
(notes/assumptions/20.md). -/
def operativeInstr (s : State) : BitVec 32 := Config.patchInstr s.shamt

/-- The lines the slot SM_DATA drives, colour and clock, and those SM_ROW drives, row select, latch and output enable
(R83). -/
def dataSlotPins (b : Build) : List Nat := b.pins.colour.toList ++ [b.pins.clock]

@[inherit_doc dataSlotPins]
def rowSlotPins (b : Build) : List Nat := b.pins.rowSelect.toList ++ [b.pins.latch, b.pins.outputEnable]

/-! ### Source pixels and packer jobs -/

/-- The three byte addresses of an entry's source pixel: a + 3p, a + 3p + 1, a + 3p + 2 (spec/40_gamma_ingest.md R77). -/
def entryAddresses (e : PackEntry) : List Nat :=
  [e.base + 3 * e.pixel, e.base + 3 * e.pixel + 1, e.base + 3 * e.pixel + 2]

/-- The three bytes as (r, g, b) in the entry's channel order (R77). -/
def orderChannels (o : Order) (b0 b1 b2 : Byte) : Byte × Byte × Byte :=
  match o with
  | .rgb => (b0, b1, b2)
  | .bgr => (b2, b1, b0)

/-- The word an entry's write stores (R81). -/
def entryWord (e : PackEntry) (s : State) : Word :=
  let (r, g, b) := orderChannels e.order (memRead (e.base + 3 * e.pixel) s) (memRead (e.base + 3 * e.pixel + 1) s)
    (memRead (e.base + 3 * e.pixel + 2) s)
  pack s.build r g b

/-- The job of a full-frame ingest (R78): for k rising, the top pixel k, then the bottom pixel k + HALF * W. -/
def fullFrameJob (base w half : Nat) (o : Order) : List PackEntry :=
  (List.range (half * w)).flatMap fun k =>
    [⟨2 * k, base, k, o, false⟩, ⟨2 * k + 1, base, k + half * w, o, false⟩]

/-- The job of a partial-area ingest (R80): rows y from Y1, columns x from X1, both rising. -/
def areaJob (base w half x1 y1 aw ah : Nat) (o : Order) : List PackEntry :=
  (List.range ah).flatMap fun dy =>
    (List.range aw).map fun dx => ⟨fbIndex w half (x1 + dx) (y1 + dy), base, dy * aw + dx, o, false⟩

end Sys2Proof.Machine
end

