-- ==== Sys2Proof/Machine/Ops.lean ====
section
/-! DEFINITION. The operations the meanings share: recording a fault, the channel primitives and the single transfer
(spec/42_transfer_chain.md), the shift patch, the scan advance, claiming the roster, and what the world outside the
block does to it. -/

namespace Sys2Proof.Machine

/-! ### Recording a fault -/

/-- `raise Fault(code)` (spec/60_exceptions.md R122): CAUSE keeps the first code, STATUS.FAULT becomes 1, nothing else
changes. Nothing is saved and nothing returns from it (R129), and only reset clears it (R123). -/
def raiseFault (c : Cause) (s : State) : State :=
  { s with
    status := { s.status with fault := true }
    cause := if s.status.fault then s.cause else c }

/-- How an operation that may raise a fault ends: precisely, so a raise leaves the state before it but for the recorded
fault (R122). -/
def settle (r : Except Cause State) (s : State) : State :=
  match r with
  | .ok t => t
  | .error c => raiseFault c s

/-! ### Channel records -/

/-- A channel's record. -/
def chan (c : ChanId) (s : State) : Channel :=
  match c with
  | .pixel => s.chPixel
  | .filler => s.chFiller
  | .row => s.chRow
  | .oedone => s.chOedone

/-- The state with a channel's record replaced. -/
def setChan (c : ChanId) (ch : Channel) (s : State) : State :=
  match c with
  | .pixel => { s with chPixel := ch }
  | .filler => { s with chFiller := ch }
  | .row => { s with chRow := ch }
  | .oedone => { s with chOedone := ch }

/-- `trigger(ch)` (R95): an active channel raises INTERNAL; an idle one starts a run of COUNT words from wherever its
addresses stand. -/
def trigger (c : ChanId) (s : State) : Except Cause State :=
  if (chan c s).active then .error .internal
  else .ok (setChan c { chan c s with active := true, remain := (chan c s).count } s)

/-- `set_read(ch, loc, t)` (R96). -/
def setRead (c : ChanId) (l : Loc) (t : Bool) (s : State) : Except Cause State :=
  if t then trigger c (setChan c { chan c s with read := l } s)
  else .ok (setChan c { chan c s with read := l } s)

/-- `set_write(ch, loc, t)` (R96). -/
def setWrite (c : ChanId) (l : Loc) (t : Bool) (s : State) : Except Cause State :=
  if t then trigger c (setChan c { chan c s with write := l } s)
  else .ok (setChan c { chan c s with write := l } s)

/-! ### One single transfer -/

/-- Whether a PACE condition holds (spec/10_state.md R34). -/
def paceHolds (p : Pace) (s : State) : Bool :=
  match p with
  | .dtxSpace => decide (s.dtx.length < s.build.serTxDepth)
  | .rtxSpace => decide (s.rtx.length < s.build.serTxDepth)
  | .rrxData => decide (0 < s.rrx.length)

/-- Whether a channel's single transfer is enabled (R97). -/
def transferEnabled (c : ChanId) (s : State) : Bool :=
  (chan c s).active && decide (0 < (chan c s).remain) && paceHolds (chan c s).pace s

/-- The word at a READ location, and the state after taking it: RRX is popped (R97). -/
def takeSource (l : Loc) (s : State) : Except Fault (Word × State) :=
  match l with
  | .fb i => if i < s.fbWords then .ok (fbRead i s, s) else .error .noFbWord
  | .zero => .ok (0, s)
  | .desc => .ok (s.desc, s)
  | .rrx =>
    match s.rrx with
    | [] => .error .noTransferRule
    | v :: rest => .ok (v, { s with rrx := rest })
  | .sink | .dtx | .rtx => .error .noTransferRule

/-- A word put at a WRITE location (R97). -/
def putWord (l : Loc) (v : Word) (s : State) : Except Fault State :=
  match l with
  | .dtx => .ok { s with dtx := s.dtx ++ [v] }
  | .rtx => .ok { s with rtx := s.rtx ++ [v] }
  | .sink => .ok { s with sink := v }
  | .fb _ | .zero | .desc | .rrx => .error .noTransferRule

/-- READ after one transfer: FB(i) advances to FB(i + 1) where READ_INC is true (R97). -/
def advanceRead (ch : Channel) : Loc :=
  if ch.readInc then
    match ch.read with
    | .fb i => .fb (i + 1)
    | l => l
  else ch.read

/-- A channel's record after one word has moved (R97). -/
def movedOne (ch : Channel) : Channel := { ch with read := advanceRead ch, remain := ch.remain - 1 }

/-- The end of a run: the channel goes inactive, and IRQ sets INT_PEND (R97). -/
def endRun (c : ChanId) (ch : Channel) (s : State) : State :=
  if ch.irq then setIntPend (setChan c { ch with active := false } s) else setChan c { ch with active := false } s

/-- CHAIN is triggered at the end of a run (R97). -/
def followChain (chain : Option ChanId) (s : State) : Except Cause State :=
  match chain with
  | none => .ok s
  | some d => trigger d s

/-- The second half of R97: READ and REMAIN advance, and the last word of a run ends it in the same step. -/
def advanceChannel (c : ChanId) (s : State) : Except Cause State :=
  if (movedOne (chan c s)).remain = 0 then
    followChain (chan c s).chain (endRun c (movedOne (chan c s)) s)
  else .ok (setChan c (movedOne (chan c s)) s)

/-- One single transfer of a channel as one indivisible step (R97). A channel that is not enabled has no step: its turn
passes and nothing changes (notes/assumptions/7.md). -/
def transfer (c : ChanId) (s : State) : Host.Outcome State Fault Refusal :=
  if transferEnabled c s then
    match takeSource (chan c s).read s with
    | .error f => .fault f
    | .ok (v, s1) =>
      match putWord (chan c s).write v s1 with
      | .error f => .fault f
      | .ok s2 => .next (settle (advanceChannel c s2) s)
  else .next s

/-! ### The sequencer's parts -/

/-- `PATCH_SHIFT(p)`: SHIFT.SHAMT <- p (spec/41_scan_program.md R86). -/
def patchShift (p : BitVec 4) (s : State) : State := { s with shamt := p }

/-- Step 2 of SEQ_STEP on (ROW, PLANE), with wide intermediates (spec/43_scan_stepper.md R104). -/
def scanNext (half : Nat) (pos : Nat × Nat) : Nat × Nat :=
  if half ≤ pos.1 + 1 then
    if Config.bitDepth ≤ pos.2 + 1 then (0, 0) else (0, pos.2 + 1)
  else (pos.1 + 1, pos.2)

/-- SCANPOS after one sequencer step. -/
def nextScan (s : State) : ScanPos :=
  let pos := scanNext s.half (s.scan.row.toNat, s.scan.plane.toNat)
  ⟨BitVec.ofNat 5 pos.1, BitVec.ofNat 4 pos.2⟩

/-- The re-arm shared by SEQ_STEP's step 4 (R104) and START (spec/44_driver_control.md R118), in this order: CH_ROW's
READ without a trigger, CH_OEDONE's WRITE with one, CH_PIXEL's READ with one. -/
def rearm (first : Nat) (s : State) : Except Cause State :=
  match setRead .row .desc false s with
  | .error c => .error c
  | .ok s1 =>
    match setWrite .oedone .sink true s1 with
    | .error c => .error c
    | .ok s2 => setRead .pixel (.fb first) true s2

/-! ### CREATE's parts -/

/-- `n` identifiers claimed one after the other from a pool, each a free choice among those left, and the pool left
(R116). -/
def claim : (n draw : Nat) → List Nat → List Nat × List Nat
  | 0, _, pool => ([], pool)
  | n + 1, draw, pool =>
    let x := pool.getD (Config.freeIndex draw % pool.length) 0
    let (xs, left) := claim n (draw + 1) (pool.erase x)
    (x :: xs, left)

/-- The roster made of the claimed slots and channels, in acquisition order (R116). -/
def rosterOf (slots channels : List Nat) : Roster where
  smData := BitVec.ofNat 2 (slots.getD 0 0)
  smRow := BitVec.ofNat 2 (slots.getD 1 0)
  chPixel := BitVec.ofNat 4 (channels.getD 0 0)
  chFiller := BitVec.ofNat 4 (channels.getD 1 0)
  chRow := BitVec.ofNat 4 (channels.getD 2 0)
  chOedone := BitVec.ofNat 4 (channels.getD 3 0)
  valid := true

/-- The configuration harness (spec/42_transfer_chain.md R93): the record CREATE writes for each channel, for a panel W
wide and a filler of FILLER_WORDS. -/
def harness (w fillerWords : Nat) (c : ChanId) : Channel :=
  match c with
  | .pixel => ⟨.fb 0, true, .dtx, false, 2 * w, 0, false, some .filler, .dtxSpace, false⟩
  | .filler => ⟨.zero, false, .dtx, false, fillerWords, 0, false, some .row, .dtxSpace, false⟩
  | .row => ⟨.desc, false, .rtx, false, 1, 0, false, none, .rtxSpace, false⟩
  | .oedone => ⟨.rrx, false, .sink, false, 1, 0, false, none, .rrxData, true⟩

/-! ### Outside the block -/

/-- The identifiers of the channels the block holds. -/
def heldChannels (r : Roster) : List Nat :=
  if r.valid then [r.chPixel.toNat, r.chFiller.toNat, r.chRow.toNat, r.chOedone.toNat] else []

/-- The serializer slots the block holds. -/
def heldSlots (r : Roster) : List Nat :=
  if r.valid then [r.smData.toNat, r.smRow.toNat] else []

/-- The platform's free pools as they now are; what the block holds is free to nobody (spec/10_state.md R27). -/
def setPools (channels slots : List Nat) (s : State) : State :=
  { s with
    freeCh := poolOf s.build.numCh channels (heldChannels s.roster)
    freeSm := poolOf s.build.numSm slots (heldSlots s.roster) }

/-- A pending write with its staleness noted when the host changes one of its source bytes (R146). -/
def noteStore (address : Nat) (e : PackEntry) : PackEntry :=
  { e with stale := e.stale || (entryAddresses e).contains address }

/-- The job after the host's store: a store of the byte already there changes none, and leaves every pending write as
it is (R146). -/
def noteStores (address : Nat) (value : Byte) (s : State) : List PackEntry :=
  if memRead address s = value then s.pj else s.pj.map (noteStore address)

/-- The host writes a byte of its source memory (R146, R151). -/
def hostStore (address : BitVec 32) (value : Byte) (s : State) : State :=
  { s with
    mem := cellWrite address.toNat value s.mem
    pj := noteStores address.toNat value s }

/-- A platform reset of the block (spec/70_reset_and_hazards.md R138): the block is as after reset and every claimed slot
and channel is free again. The parameters, host source memory, the host's last read value and what happens next are no
part of the block. -/
def platformReset (s : State) : State :=
  { State.afterReset s.build
      (poolOf s.build.numCh (s.freeCh ++ heldChannels s.roster) [])
      (poolOf s.build.numSm (s.freeSm ++ heldSlots s.roster) []) s.draws with
    mem := s.mem
    rdata := s.rdata
    input := s.input }

end Sys2Proof.Machine
end

