-- ==== Sys2Proof/Machine/Ingest.lean ====
section
/-! DEFINITION. The ingest commands and the packer's step (spec/40_gamma_ingest.md R78 to R81), as the commands run once
they are accepted. -/

namespace Sys2Proof.Machine

/-- The job accepted: PJ replaced and BUSY set (R78). -/
def startJob (job : List PackEntry) (s : State) : State := setBusy true { s with pj := job }

/-- UPDATE and UPDATE_BGR (R78, R79), checks in the order of spec/60_exceptions.md R125. SRC_ADDR and SRC_LEN are latched
into the job. -/
def fullFrame (o : Order) (s : State) : Except Cause State :=
  if s.status.created = false then .error .notCreated
  else if s.status.busy then .error .busy
  else if s.srcLen.toNat ≠ s.width * s.height * 3 then .error .badLength
  else if 2 ^ 32 < s.srcAddr.toNat + s.srcLen.toNat then .error .badSrc
  else .ok (startJob (fullFrameJob s.srcAddr.toNat s.width s.half o) s)

/-- UPDATE_AREA (R80), checks in the order of R125: the inclusive corners (X1, Y1) and (X2, Y2). -/
def partialArea (s : State) : Except Cause State :=
  let x1 := lowHalf s.areaP1
  let y1 := highHalf s.areaP1
  let x2 := lowHalf s.areaP2
  let y2 := highHalf s.areaP2
  if s.status.created = false then .error .notCreated
  else if s.status.busy then .error .busy
  else if x2 < x1 ∨ y2 < y1 ∨ s.width ≤ x2 ∨ s.height ≤ y2 then .error .badArea
  else if s.srcLen.toNat ≠ (x2 - x1 + 1) * (y2 - y1 + 1) * 3 then .error .badLength
  else if 2 ^ 32 < s.srcAddr.toNat + s.srcLen.toNat then .error .badSrc
  else
    .ok (startJob
      (areaJob s.srcAddr.toNat s.width s.half x1 y1 (x2 - x1 + 1) (y2 - y1 + 1) s.build.areaOrder) s)

/-- The packer has a step when PJ is not empty and SRC_ADMIT holds of its head's three addresses (R81, spec/20_memory.md
R39). -/
def packEnabled (s : State) : Bool :=
  match s.pj with
  | [] => false
  | e :: _ => (entryAddresses e).all (admits s.build)

/-- The job after its head is done: the tail, and BUSY cleared with the last entry (R81). -/
def popJob (s : State) : State :=
  if s.pj.tail.isEmpty then setBusy false { s with pj := [] } else { s with pj := s.pj.tail }

/-- The word the packer stores for an entry: the packed pixel, or a free draw where the host changed a source byte while
the entry was pending (R81, spec/70_reset_and_hazards.md R146). -/
def storedWord (e : PackEntry) (s : State) : Word :=
  if e.stale then Config.freeWord s.draws else entryWord e s

/-- The draw a stale entry's word takes. -/
def drawFor (e : PackEntry) (s : State) : State :=
  if e.stale then { s with draws := s.draws + 1 } else s

/-- The packer's one step (R81). A packer that is not enabled has no step: its turn passes and nothing changes
(notes/assumptions/7.md). -/
def packStep (s : State) : Host.Outcome State Fault Refusal :=
  if packEnabled s then
    match s.pj with
    | [] => .next s
    | e :: _ =>
      if e.fbIndex < s.fbWords then .next (popJob (drawFor e (fbWrite e.fbIndex (storedWord e s) s)))
      else .fault .noFbWord
  else .next s

/-- PACK_WRITE (R81). -/
def execPackWrite (s : State) : Host.Outcome State Fault Refusal := packStep s

end Sys2Proof.Machine
end

