-- ==== Sys2Proof/Machine/Driver.lean ====
section
/-! DEFINITION. CREATE, START, the acceptance of a command word, and the meanings of the five commands
(spec/44_driver_control.md R114, R116, R118). -/

namespace Sys2Proof.Machine

/-- What a successful CREATE leaves (R116): two slots and four channels claimed, CFG latched, FB unspecified, the
channels configured, the scan position and its registers at (0, 0), the event enabled. -/
def created (s : State) : State :=
  let slots := claim 2 s.draws s.freeSm
  let channels := claim 4 (s.draws + 2) s.freeCh
  let w := lowHalf s.geom
  { s with
    roster := rosterOf slots.1 channels.1
    freeSm := slots.2
    freeCh := channels.2
    cfg := ⟨s.geom.extractLsb' 0 16, s.geom.extractLsb' 16 16⟩
    fb := []
    fbEpoch := s.draws + 6
    draws := s.draws + 7
    chPixel := harness w s.build.fillerWords .pixel
    chFiller := harness w s.build.fillerWords .filler
    chRow := harness w s.build.fillerWords .row
    chOedone := harness w s.build.fillerWords .oedone
    scan := ⟨0, 0⟩
    desc := descOf 0 0
    shamt := 0
    status := { s.status with intEn := true, created := true } }

/-- CREATE after the acceptance checks (R116), faults in the order of R125. RESOURCE claims nothing and halts the block
(spec/60_exceptions.md R124). -/
def runCreate (s : State) : State :=
  if s.status.created then raiseFault .reinit s
  else if legalGeometry s.build.fbCapacity (lowHalf s.geom) (highHalf s.geom) = false then raiseFault .badGeometry s
  else if s.freeSm.length < 2 ∨ s.freeCh.length < 4 then
    raiseFault .resource { s with status := { s.status with halted := true } }
  else created s

/-- START after the acceptance checks (R118). -/
def runStart (s : State) : State :=
  if s.status.created = false then raiseFault .notCreated s
  else if s.status.running then raiseFault .restart s
  else
    match rearm 0 (patchShift 0 { s with desc := descOf s.scan.row s.scan.plane }) with
    | .error c => raiseFault c s
    | .ok t => { t with status := { t.status with running := true } }

/-- A command's own effect (R114's case). -/
def runCommand (c : Command) (s : State) : State :=
  match c with
  | .create => runCreate s
  | .start => runStart s
  | .update => settle (fullFrame .rgb s) s
  | .updateBgr => settle (fullFrame .bgr s) s
  | .updateArea => settle (partialArea s) s

/-- A CMD write of a command's word: ignored while HALTED (R114, R124). -/
def acceptCommand (c : Command) (s : State) : State :=
  if s.status.halted then s else runCommand c s

/-- A CMD write of a word that is no command: ignored while HALTED, else BAD_CMD (R114, spec/30_encoding.md R58). -/
def rejectCommand (s : State) : State :=
  if s.status.halted then s else raiseFault .badCmd s

/-- CREATE (R116). -/
def execCreate (s : State) : Host.Outcome State Fault Refusal := .next (acceptCommand .create s)

/-- START (R118). -/
def execStart (s : State) : Host.Outcome State Fault Refusal := .next (acceptCommand .start s)

/-- UPDATE (spec/40_gamma_ingest.md R78). -/
def execUpdate (s : State) : Host.Outcome State Fault Refusal := .next (acceptCommand .update s)

/-- UPDATE_BGR (R79). -/
def execUpdateBgr (s : State) : Host.Outcome State Fault Refusal := .next (acceptCommand .updateBgr s)

/-- UPDATE_AREA (R80). -/
def execUpdateArea (s : State) : Host.Outcome State Fault Refusal := .next (acceptCommand .updateArea s)

end Sys2Proof.Machine
end

