-- ==== Sys2Proof/Machine/Bus.lean ====
section
/-! DEFINITION. The two host bus operations (spec/44_driver_control.md R114, R115). -/

namespace Sys2Proof.Machine

/-- A write of v to CMD (R114): a command, or an illegal word. -/
def writeCmd (v : Word) (s : State) : State :=
  match decodeCommand v with
  | some c => acceptCommand c s
  | none => rejectCommand s

/-- What a bus access reaches: nothing unless it is 32 bits wide at a mapped, aligned offset (spec/20_memory.md R43). The
window runs on past offset 0xFFFF where W x H > 15360 (R17, R40; notes/assumptions/28.md). -/
def accessTarget (size : Width) (offset : Word) (s : State) : Option Target :=
  if size = .bits32 then targetAt offset.toNat s else none

/-- The state after BUS_WR (R114): an RO register and the FB window fault BAD_REG like an illegal access. -/
def busWrite (size : Width) (offset : Word) (v : Word) (s : State) : State :=
  match accessTarget size offset s with
  | some (.reg .cmd) => writeCmd v s
  | some (.reg r) => (writeArgument r v s).getD (raiseFault .badReg s)
  | some (.fbWord _) => raiseFault .badReg s
  | none => raiseFault .badReg s

/-- The value and the state after BUS_RD (R115): a faulting read returns 0. -/
def busRead (size : Width) (offset : Word) (s : State) : Word × State :=
  match accessTarget size offset s with
  | some (.reg r) => (readReg r s, s)
  | some (.fbWord i) => (fbRead i s, s)
  | none => (0, raiseFault .badReg s)

/-- BUS_WR (R114). -/
def execBusWr (size : Width) (offset : Word) (v : Word) (s : State) : Host.Outcome State Fault Refusal :=
  .next (busWrite size offset v s)

/-- BUS_RD (R115): the value read goes to the host. -/
def execBusRd (size : Width) (offset : Word) (s : State) : Host.Outcome State Fault Refusal :=
  .next { (busRead size offset s).2 with rdata := (busRead size offset s).1 }

end Sys2Proof.Machine
end

