-- ==== Sys2Proof/Machine/Chain.lean ====
section
/-! DEFINITION. The four transfers (spec/42_transfer_chain.md R98 to R101). -/

namespace Sys2Proof.Machine

/-- XFER_PIXEL (R98). -/
def execXferPixel (s : State) : Host.Outcome State Fault Refusal := transfer .pixel s

/-- XFER_FILLER (R99). -/
def execXferFiller (s : State) : Host.Outcome State Fault Refusal := transfer .filler s

/-- XFER_ROW (R100). -/
def execXferRow (s : State) : Host.Outcome State Fault Refusal := transfer .row s

/-- XFER_OEDONE (R101). -/
def execXferOedone (s : State) : Host.Outcome State Fault Refusal := transfer .oedone s

end Sys2Proof.Machine
end

