-- ==== Sys2Proof/Machine/Scan.lean ====
section
/-! DEFINITION. The scan stepper, the shift patch and the two external serializers (spec/43_scan_stepper.md R104,
spec/41_scan_program.md R86 to R90). -/

namespace Sys2Proof.Machine

/-- Steps 1 to 3 of the handler (R104): acknowledge, advance, patch the shift where the plane changes, recompute the
descriptor. -/
def advanceScan (s : State) : State :=
  let acked := clearIntPend s
  let moved := { acked with scan := nextScan s }
  let patched := if (nextScan s).plane ≠ s.scan.plane then patchShift (nextScan s).plane moved else moved
  { patched with desc := descOf (nextScan s).row (nextScan s).plane }

/-- The whole handler (R104), its re-arm last: CH_PIXEL starts at FB(ROW * W * 2). -/
def seqBody (s : State) : Except Cause State :=
  rearm ((nextScan s).row.toNat * s.width * 2) (advanceScan s)

/-- SEQ_STEP (R104). A sequencer that is not enabled has no step: its turn passes and nothing changes
(notes/assumptions/7.md). -/
def execSeqStep (s : State) : Host.Outcome State Fault Refusal :=
  if eventEnabled s then .next (settle (seqBody s) s) else .next s

/-- Where SEQ_STEP and START, the only two places that perform PATCH_SHIFT(p), perform it (R86, R104,
spec/44_driver_control.md R118): in a created block that is not halted, p being the plane SCANPOS has by then. -/
def patchEnabled (plane : BitVec 4) (s : State) : Bool :=
  s.status.created && !s.status.halted && decide (plane = s.scan.plane)

/-- PATCH_SHIFT (R86). SEQ_STEP and START perform the patch within their own step; a turn that names it on its own has its
effect where they would perform it, and elsewhere is no step: the turn passes and nothing changes. As SHAMT = PLANE
between steps (R108), such a turn never changes the state of a run (notes/assumptions/5.md). -/
def execPatchShift (plane : BitVec 4) (s : State) : Host.Outcome State Fault Refusal :=
  if patchEnabled plane s then .next (patchShift plane s) else .next s

/-- The lane of the next word the data serializer pops (R87): TOP after an even number of pops. -/
def nextLane (s : State) : Lane := if s.popped % 2 = 0 then .top else .bottom

/-- SER_DATA_POP (R87): the head of DTX goes to the log DS with the shift in force and its lane. With DTX empty the
serializer has no step. -/
def execSerDataPop (s : State) : Host.Outcome State Fault Refusal :=
  match s.dtx with
  | [] => .next s
  | w :: rest =>
    .next { s with dtx := rest, ds := s.ds ++ [⟨w, s.shamt, nextLane s⟩], popped := s.popped + 1 }

/-- SER_ROW_TAKE (R89): an idle row serializer takes the head of RTX, logs it in RS and shows it. Busy, or with RTX
empty, it has no such step. -/
def execSerRowTake (s : State) : Host.Outcome State Fault Refusal :=
  match s.phase, s.rtx with
  | .idle, d :: rest => .next { s with rtx := rest, rs := s.rs ++ [d], phase := .busy d }
  | .idle, [] => .next s
  | .busy _, _ => .next s

/-- SER_ROW_DONE (R90): the pulse ends, a completion token, a free draw, goes to RRX. Idle, or with RRX full, the row
serializer has no such step. -/
def execSerRowDone (s : State) : Host.Outcome State Fault Refusal :=
  match s.phase with
  | .idle => .next s
  | .busy _ =>
    if s.rrx.length < s.build.serRxDepth then
      .next { s with rrx := s.rrx ++ [Config.freeWord s.draws], draws := s.draws + 1, phase := .idle }
    else .next s

end Sys2Proof.Machine
end

