-- ==== Sys2Proof/Machine/Dispatch.lean ====
section
/-! DEFINITION. One arm per operation of spec/opcode_table.json. -/

namespace Sys2Proof.Machine

def exec (i : Instr) (s : State) : Host.Outcome State Fault Refusal :=
  match i with
  | .create => Sys2Proof.Machine.execCreate s
  | .start => Sys2Proof.Machine.execStart s
  | .update => Sys2Proof.Machine.execUpdate s
  | .updateBgr => Sys2Proof.Machine.execUpdateBgr s
  | .updateArea => Sys2Proof.Machine.execUpdateArea s
  | .busWr size offset value => Sys2Proof.Machine.execBusWr size offset value s
  | .busRd size offset => Sys2Proof.Machine.execBusRd size offset s
  | .packWrite => Sys2Proof.Machine.execPackWrite s
  | .xferPixel => Sys2Proof.Machine.execXferPixel s
  | .xferFiller => Sys2Proof.Machine.execXferFiller s
  | .xferRow => Sys2Proof.Machine.execXferRow s
  | .xferOedone => Sys2Proof.Machine.execXferOedone s
  | .seqStep => Sys2Proof.Machine.execSeqStep s
  | .patchShift plane => Sys2Proof.Machine.execPatchShift plane s
  | .serDataPop => Sys2Proof.Machine.execSerDataPop s
  | .serRowTake => Sys2Proof.Machine.execSerRowTake s
  | .serRowDone => Sys2Proof.Machine.execSerRowDone s

end Sys2Proof.Machine
end

