-- ==== Sys2Proof/Machine/Fetch.lean ====
section
/-! DEFINITION. What one entry of the input list does: an operation is decoded and run, anything else acts on the block
from outside (spec/00_scope.md R12, spec/70_reset_and_hazards.md R151). -/

namespace Sys2Proof.Machine

/-- An operation's turn: the decoded instruction runs; a command word that is no command is a CMD write all the same
and faults BAD_CMD (spec/30_encoding.md R58); anything else that decodes to nothing is refused. -/
def runEncoded (e : Encoded) (s : State) : Host.Outcome State Fault Refusal :=
  match decode e with
  | .ok i => exec i s
  | .error .reservedCommand => .next (rejectCommand s)
  | .error .malformedHeader => .refused (.undecodable .malformedHeader)
  | .error .unnamedEvent => .refused (.undecodable .unnamedEvent)
  | .error .badPlane => .refused (.undecodable .badPlane)

/-- One entry of the input list, already taken off it. -/
def runInput (t : Input) (s : State) : Host.Outcome State Fault Refusal :=
  match t with
  | .op e => runEncoded e s
  | .store address value => .next (hostStore address value s)
  | .pools channels slots => .next (setPools channels slots s)
  | .reset => .next (platformReset s)

/-- The next entry of the input list runs, with the list moved past it. With nothing listed nothing happens: the block
fetches nothing of its own (R16, R139). -/
def runNext (s : State) : Host.Outcome State Fault Refusal :=
  match s.input with
  | [] => .next s
  | t :: rest => runInput t { s with input := rest }

end Sys2Proof.Machine
end

