-- ==== Sys2Proof/Machine/Step.lean ====
section
/-! DEFINITION. One step of the machine: one entry of the interleaving (spec/00_scope.md R12). -/

namespace Sys2Proof.Machine

/-- One step. -/
def step (s : State) : Host.Outcome State Fault Refusal := runNext s

/-- `s` with a table row's word as the next entry of the input list (notes/assumptions/2.md). -/
def State.withFetchWord (s : State) (nbits w : Nat) : State :=
  { s with input := .op (tableForm nbits w) :: s.input }

end Sys2Proof.Machine
end

