-- ==== Sys2Proof/Safety.lean ====
section
/-! DEFINITION. What counts as a well-kept state: the scan path's seven positions (spec/43_scan_stepper.md R109) and the
invariant of every state a run from reset can reach, in the terms the claims use. -/

namespace Sys2Proof.Machine

/-! ### The scan path's positions -/

/-- The seven positions of R109, in order. -/
inductive ScanPosition where
  | pixelRun
  | fillerRun
  | rowSend
  | rowQueued
  | rowShown
  | tokenQueued
  | eventPending
  deriving DecidableEq, Repr

/-- The position after each (R102, R109). -/
def ScanPosition.succ : ScanPosition → ScanPosition
  | .pixelRun => .fillerRun
  | .fillerRun => .rowSend
  | .rowSend => .rowQueued
  | .rowQueued => .rowShown
  | .rowShown => .tokenQueued
  | .tokenQueued => .eventPending
  | .eventPending => .pixelRun

/-- The scan-path operation that moves on from each position (R102). -/
def ScanPosition.operation : ScanPosition → Instr
  | .pixelRun => .xferPixel
  | .fillerRun => .xferFiller
  | .rowSend => .xferRow
  | .rowQueued => .serRowTake
  | .rowShown => .serRowDone
  | .tokenQueued => .xferOedone
  | .eventPending => .seqStep

/-- Whether the row serializer is in phase BUSY (spec/41_scan_program.md R89). -/
def RowPhase.isBusy : RowPhase → Bool
  | .idle => false
  | .busy _ => true

/-- The scan path stands at a position (R109): which channels are active, whether the event is pending, how many words
RTX and RRX hold and whether the row serializer is busy. -/
structure At (p : ScanPosition) (s : State) : Prop where
  pixel : s.chPixel.active = decide (p = .pixelRun)
  filler : s.chFiller.active = decide (p = .fillerRun)
  row : s.chRow.active = decide (p = .rowSend)
  oedone : s.chOedone.active = decide (p ≠ .eventPending)
  pending : s.status.intPend = decide (p = .eventPending)
  rtx : s.rtx.length = if p = .rowQueued then 1 else 0
  rrx : s.rrx.length = if p = .tokenQueued then 1 else 0
  phase : s.phase.isBusy = decide (p = .rowShown)

/-! ### Parts of the invariant -/

/-- A record with a run in progress exactly while words remain, never more than COUNT (spec/42_transfer_chain.md R95,
R97). -/
structure RunOk (ch : Channel) : Prop where
  active : ch.active = decide (0 < ch.remain)
  remain : ch.remain ≤ ch.count

/-- The four records are as CREATE configured them, but for CH_PIXEL's READ and the runs (R93, R97). -/
structure Configured (s : State) : Prop where
  pixel : s.chPixel = { harness s.width s.build.fillerWords .pixel with
    read := s.chPixel.read, remain := s.chPixel.remain, active := s.chPixel.active }
  filler : s.chFiller = { harness s.width s.build.fillerWords .filler with
    remain := s.chFiller.remain, active := s.chFiller.active }
  row : s.chRow = { harness s.width s.build.fillerWords .row with
    remain := s.chRow.remain, active := s.chRow.active }
  oedone : s.chOedone = { harness s.width s.build.fillerWords .oedone with
    remain := s.chOedone.remain, active := s.chOedone.active }

/-- The roster holds distinct identifiers of the platform's pools (spec/10_state.md R27). -/
structure RosterOk (s : State) : Prop where
  channels : [s.roster.chPixel.toNat, s.roster.chFiller.toNat, s.roster.chRow.toNat, s.roster.chOedone.toNat].Nodup
  slots : s.roster.smData ≠ s.roster.smRow
  channelPool : ∀ c ∈ heldChannels s.roster, c < s.build.numCh
  slotPool : ∀ c ∈ heldSlots s.roster, c < s.build.numSm

/-- Before START nothing of the scan path moves (spec/70_reset_and_hazards.md R139). -/
structure Quiet (s : State) : Prop where
  pixel : s.chPixel.active = false
  filler : s.chFiller.active = false
  row : s.chRow.active = false
  oedone : s.chOedone.active = false
  pending : s.status.intPend = false
  dtx : s.dtx = []
  rtx : s.rtx = []
  rrx : s.rrx = []
  phase : s.phase = .idle
  scan : s.scan = ⟨0, 0⟩

/-- The filler words CH_FILLER has pushed in this run, as far as they are still in DTX, are DTX's last words and are 0
(R99; spec/70_reset_and_hazards.md R143). -/
def Flushed (s : State) : Prop :=
  ∀ w ∈ s.dtx.drop (s.dtx.length - (s.build.fillerWords - s.chFiller.remain)), w = 0

/-- While a CH_PIXEL run is in progress it reads on inside the 2W words of the current row address (R98, R111). -/
def PixelRead (s : State) : Prop :=
  s.chPixel.active = true → s.chPixel.read = .fb (2 * s.width * (s.scan.row.toNat + 1) - s.chPixel.remain)

/-! ### The invariant -/

/-- What every step keeps. -/
structure Inv (s : State) : Prop where
  /-- The parameters are ones the spec admits (spec/00_scope.md R8). -/
  build : s.build.Admissible
  /-- Host source memory is in canonical form. -/
  mem : Memory.wf s.mem = true
  /-- The frame buffer is in canonical form and lists only words in use. -/
  fb : FrameBuffer.wf s.fbWords s.fb = true
  /-- STATUS.BUSY = (PJ is not empty) (spec/10_state.md R35). -/
  busy : s.status.busy = !s.pj.isEmpty
  /-- CAUSE.CODE is nonzero exactly when STATUS.FAULT is 1 (R19). -/
  cause : s.cause = .noFault ↔ s.status.fault = false
  /-- Every pending write is to a word in use. -/
  jobs : ∀ e ∈ s.pj, e.fbIndex < s.fbWords
  /-- The block runs only if it is created, and is created only if it is not halted (spec/44_driver_control.md R119,
  spec/60_exceptions.md R124). -/
  running : s.status.running = true → s.status.created = true
  notHalted : s.status.created = true → s.status.halted = false
  /-- The event is enabled, the roster valid and a geometry latched exactly when the block is created (R116). -/
  intEn : s.status.intEn = s.status.created
  valid : s.roster.valid = s.status.created
  geometry : if s.status.created then legalGeometry s.build.fbCapacity s.width s.height = true else s.cfg = ⟨0, 0⟩
  /-- The scan position is in range, DESC follows it, SHAMT is a plane (spec/43_scan_stepper.md R105, R111). -/
  row : s.status.created = true → s.scan.row.toNat < s.half
  plane : s.scan.plane.toNat < Config.bitDepth
  desc : s.desc = descOf s.scan.row s.scan.plane
  shamt : s.shamt.toNat < Config.bitDepth
  /-- The pools hold distinct identifiers in range (spec/00_scope.md R8). -/
  freeCh : s.freeCh.Nodup ∧ ∀ c ∈ s.freeCh, c < s.build.numCh
  freeSm : s.freeSm.Nodup ∧ ∀ c ∈ s.freeSm, c < s.build.numSm
  roster : s.status.created = true → RosterOk s
  /-- The channels are configured, their runs sound and CH_PIXEL reads the current row's words. -/
  configured : s.status.created = true → Configured s
  runs : RunOk s.chPixel ∧ RunOk s.chFiller ∧ RunOk s.chRow ∧ RunOk s.chOedone
  pixelRead : PixelRead s
  /-- The queues keep their capacities (spec/10_state.md R33). -/
  depth : s.dtx.length ≤ s.build.serTxDepth
  /-- The scan path stands at a position while it runs and is quiet before (R109). -/
  path : if s.status.running then ∃ p, At p s ∧ (p ≠ .pixelRun → Flushed s) else Quiet s

/-- A list of operations run one after the other, stopping at the first fault or refusal. -/
def runOps : List Instr → State → Host.Outcome State Fault Refusal
  | [], s => .next s
  | i :: rest, s =>
    match exec i s with
    | .next t => runOps rest t
    | .fault f => .fault f
    | .refused r => .refused r

/-- The sequencer's steps of a scan: its k-th step is taken in `f k`, on a panel with `half` row addresses, and what other
agents do before the next one leaves the scan position where that step put it (spec/43_scan_stepper.md R104, R113). -/
structure ScanRun (half : Nat) (f : Nat → State) : Prop where
  rows : ∀ k, (f k).half = half
  enabled : ∀ k, eventEnabled (f k) = true ∧ (f k).chOedone.active = false ∧ (f k).chPixel.active = false
  steps : ∀ k, ∃ t, exec .seqStep (f k) = .next t ∧ (f (k + 1)).scan = t.scan

/-! ### Runs without end -/

/-- The steps of the block's agents and of the serializers, to which R149 promises a turn. -/
def agentSteps : List Instr :=
  [.packWrite, .xferPixel, .xferFiller, .xferRow, .xferOedone, .seqStep, .serDataPop, .serRowTake, .serRowDone]

/-- Whether an operation has a step: what its rule says enables it (spec/40_gamma_ingest.md R81, R97, R104, R86, R87, R89,
R90). The host may issue its own at any time (spec/70_reset_and_hazards.md R151). -/
def hasStep (i : Instr) (s : State) : Bool :=
  match i with
  | .create | .start | .update | .updateBgr | .updateArea => true
  | .busWr _ _ _ | .busRd _ _ => true
  | .packWrite => packEnabled s
  | .xferPixel => transferEnabled .pixel s
  | .xferFiller => transferEnabled .filler s
  | .xferRow => transferEnabled .row s
  | .xferOedone => transferEnabled .oedone s
  | .seqStep => eventEnabled s
  | .patchShift plane => patchEnabled plane s
  | .serDataPop => !s.dtx.isEmpty
  | .serRowTake => !s.phase.isBusy && !s.rtx.isEmpty
  | .serRowDone => s.phase.isBusy && decide (s.rrx.length < s.build.serRxDepth)

/-- An entry of the interleaving is an operation's turn. -/
def Input.takes (t : Input) (i : Instr) : Prop := ∃ e, t = .op e ∧ decode e = .ok i

/-- A run without end and without a reset, in which the agents' steps are weakly fair (spec/70_reset_and_hazards.md R149,
R150): its k-th step runs the entry `turn k` in the state `f k`, and a step that stays enabled is taken at last. State's
input list is finite, so the entries are listed one at a time (notes/assumptions/2.md). -/
structure FairRun (turn : Nat → Input) (f : Nat → State) : Prop where
  steps : ∀ k, step { f k with input := [turn k] } = .next (f (k + 1))
  noReset : ∀ k, turn k ≠ .reset
  fair : ∀ i ∈ agentSteps, ∀ n, (∀ k, n ≤ k → hasStep i (f k) = true) → ∃ k, n ≤ k ∧ (turn k).takes i

/-! ### What the shift patch and the lanes keep -/

/-- The words the data serializer has popped and those still to come pair up, so each row's first word lands on TOP
(spec/41_scan_program.md R88). -/
def LanesPaired (s : State) : Prop :=
  (s.popped + s.dtx.length + s.chPixel.remain + s.chFiller.remain) % 2 = 0

/-- SHAMT equals PLANE (spec/43_scan_stepper.md R108). -/
def ShiftInStep (s : State) : Prop := s.shamt = s.scan.plane

end Sys2Proof.Machine
end

