-- ==== Sys2Proof/Certificates/Slice0/Obligations.lean ====
section
/-! DEFINITION. The statements for the provers. Each docstring names the rule of spec/ it formalises, or says that it
rests on a choice of the model's own and names the log entry. -/

open Sys2Proof Sys2Proof.Machine Host

/-! ### Encodings -/

/-- R55 to R61, R86: decoding the encoding of a well-formed operation gives it back, with every operand at every value
its encoding admits. -/
def Obligations.DecodeOfEncodeIsIdentity : Prop :=
  ∀ i : Instr, i.wellFormed = true → decode (encode i) = .ok i

/-- R55 to R61: whatever decodes is well formed and encodes to the same command word, the same header or the same event
code, so no word has two readings; the lanes beside a header or a code agree where the form has an operand there. Which
forms ignore them is the model's choice (notes/assumptions/4.md), and so is the lane of an offset's upper bits
(notes/assumptions/28.md). -/
def Obligations.EncodeOfDecodeIsIdentity : Prop :=
  ∀ (e : Encoded) (i : Instr), decode e = .ok i → i.wellFormed = true ∧
    match e with
    | .cmd32 w => encode i = .cmd32 w
    | .bus h d high => ∃ d', encode i = .bus h d' high ∧ (h.getLsbD 31 = true → d' = d)
    | .event8 c p => ∃ p', encode i = .event8 c p' ∧ (c = 0x31 → p' = p)

/-- R57, R60, R61: words written out from the spec's layouts decode to the operations they stand for, and the word of a
table row is read so too. Three kinds of clause are the model's choice: that a 32-bit table word of a command is read as
CMD32, as 0x1 is here, though it is a BUS header too (notes/assumptions/3.md); PATCH_SHIFT's operand in a lane beside its
code (notes/assumptions/4.md); and the three words that name nothing being refused (notes/assumptions/6.md). -/
def Obligations.WordsOfTheSpecDecode : Prop :=
  decode (.cmd32 0x00000003) = .ok .update ∧
  decode (.bus 0x8002000C 0x00400040 0) = .ok (.busWr .bits32 0x000C 0x00400040) ∧
  decode (.bus 0x00010004 0 0) = .ok (.busRd .bits16 0x0004) ∧
  decode (.event8 0x23 0) = .ok .xferOedone ∧
  decode (.event8 0x31 9) = .ok (.patchShift 9) ∧
  decode (.event8 0x31 10) = .error .badPlane ∧
  decode (.event8 0x43 0) = .error .unnamedEvent ∧
  decode (.bus 0x80060000 0 0) = .error .malformedHeader ∧
  decodeTableWord 32 0x00000001 = some .create ∧
  decodeTableWord 8 0x42 = some .serRowDone

/-- R58: a CMD write of any word but the five commands faults BAD_CMD and has no other effect, whether it comes as a bus
write or as a command word. The halted block is the exception R124 makes. -/
def Obligations.ReservedCommandFaultsBadCmd : Prop :=
  ∀ (s : State) (w : Word), w.toNat = 0 ∨ 6 ≤ w.toNat → s.status.halted = false →
    exec (.busWr .bits32 0x000 w) s = .next (raiseFault .badCmd s) ∧
    runEncoded (.cmd32 w) s = .next (raiseFault .badCmd s)

/-! ### The step -/

/-- R12: when the next entry of the input list decodes to an instruction, the step is that instruction's meaning on the
state with the entry taken off the list, and nothing else happens. -/
def Obligations.StepRunsDecodedInstruction : Prop :=
  ∀ (s : State) (e : Encoded) (rest : List Input) (i : Instr),
    s.input = .op e :: rest → decode e = .ok i → step s = exec i { s with input := rest }

/-- R39, R139, R146, R151: the steps that are no operation of the block. With no input listed nothing happens; the host's
byte goes to source memory, touches no register, and marks the pending writes of a byte it changes; the platform's pools
change nothing of the block and never offer what the block holds. The input list (notes/assumptions/2.md), the mark
(notes/assumptions/11.md) and the pools as state and input (notes/assumptions/14.md) are the model's choice. -/
def Obligations.StepTakesOutsideInputs : Prop :=
  ∀ (s : State) (rest : List Input),
    (s.input = [] → step s = .next s) ∧
    (∀ a b, s.input = .store a b :: rest →
      ∃ t, step s = .next t ∧ t = { s with input := rest, mem := t.mem, pj := t.pj } ∧
        memRead a.toNat t = b ∧ (∀ a', a' ≠ a.toNat → memRead a' t = memRead a' s) ∧
        t.pj = if memRead a.toNat s = b then s.pj
          else s.pj.map fun e => { e with stale := e.stale || (entryAddresses e).contains a.toNat }) ∧
    (∀ cs ss, s.input = .pools cs ss :: rest →
      ∃ t, step s = .next t ∧ t = { s with input := rest, freeCh := t.freeCh, freeSm := t.freeSm } ∧
        (∀ c, c ∈ t.freeCh ↔ c < s.build.numCh ∧ c ∈ cs ∧ c ∉ heldChannels s.roster) ∧
        ∀ c, c ∈ t.freeSm ↔ c < s.build.numSm ∧ c ∈ ss ∧ c ∉ heldSlots s.roster)

/-! ### Reset -/

/-- R138: what reset leaves: at power-on, and after a platform reset of the block in any state. What the rule leaves
unspecified is a free value, in the model's form: FB (notes/assumptions/10.md), SINK (notes/assumptions/12.md) and the
channels' other fields (notes/assumptions/13.md). That host memory and the input list stay (notes/assumptions/16.md) and
that the pools are state (notes/assumptions/14.md) is the model's choice too. -/
def Obligations.ResetLeavesResetValues : Prop :=
  let asReset : State → Prop := fun t =>
    readReg .status t = 0 ∧ readReg .cause t = 0 ∧ readReg .geom t = 0 ∧ readReg .srcAddr t = 0 ∧
    readReg .srcLen t = 0 ∧ readReg .areaP1 t = 0 ∧ readReg .areaP2 t = 0 ∧ readReg .cfg t = 0 ∧
    readReg .scanpos t = 0 ∧ readReg .desc t = 0x000000C0 ∧ readReg .shift t = 0 ∧ readReg .roster t = 0 ∧
    readReg .param t = BitVec.ofNat 32 (t.build.fillerWords % 2 ^ 16 + 2 ^ 16 * 10) ∧
    (∀ c, ∃ n, chan c t = { Config.freeChannel n with active := false, remain := 0 }) ∧
    t.dtx = [] ∧ t.rtx = [] ∧ t.rrx = [] ∧ t.pj = [] ∧ t.phase = .idle ∧ t.popped = 0 ∧ t.ds = [] ∧ t.rs = [] ∧
    ∃ n, t.sink = Config.freeWord n ∧ ∀ i, fbRead i t = Config.freeFbWord n i
  asReset State.reset ∧
  ∀ (s : State) (rest : List Input), s.input = .reset :: rest →
    ∃ t, step s = .next t ∧ asReset t ∧ t.build = s.build ∧ t.mem = s.mem ∧ t.input = rest ∧
      (∀ c, c < s.build.numCh → (c ∈ s.freeCh ∨ c ∈ heldChannels s.roster) → c ∈ t.freeCh) ∧
      (∀ c, c < s.build.numSm → (c ∈ s.freeSm ∨ c ∈ heldSlots s.roster) → c ∈ t.freeSm)

/-- The invariant holds right after reset. -/
def Obligations.ResetStateKeepsInvariant : Prop :=
  Inv State.reset ∧ LanesPaired State.reset ∧ ShiftInStep State.reset

/-! ### Faults and the register window -/

/-- R43: a bus access of another width, at an offset that is no multiple of 4, or at an unmapped offset (R17: no register
and outside the FB window of W x H words) faults BAD_REG and has no other effect; the read returns 0 (R115). -/
def Obligations.IllegalAccessFaultsBadReg : Prop :=
  ∀ (s : State) (size : Width) (o : Word) (v : Word),
    size ≠ .bits32 ∨ o.toNat % 4 ≠ 0 ∨
      (0x038 ≤ o.toNat ∧ o.toNat < 0x1000) ∨ 0x1000 + 4 * s.fbWords ≤ o.toNat →
    exec (.busWr size o v) s = .next (raiseFault .badReg s) ∧
    exec (.busRd size o) s = .next { raiseFault .badReg s with rdata := 0 }

/-- R122: a fault is recorded in STATUS.FAULT, and in CAUSE when it is the first; and faults are precise: an operation that
records the first fault changes nothing else, but for HALTED on RESOURCE (R124) and the 0 a faulting read returns (R115). -/
def Obligations.FaultsArePrecise : Prop :=
  ∀ s : State,
    (∀ c, raiseFault c s =
        { s with status := { s.status with fault := true }, cause := (raiseFault c s).cause } ∧
      (s.status.fault = false → (raiseFault c s).cause = c) ∧
      (s.status.fault = true → (raiseFault c s).cause = s.cause)) ∧
    ∀ (i : Instr) (t : State), exec i s = .next t → s.status.fault = false → t.status.fault = true →
      (∃ c, c ≠ .noFault ∧ t = raiseFault c s) ∨
      t = raiseFault .resource { s with status := { s.status with halted := true } } ∨
      (∃ size o, i = .busRd size o ∧ t = { raiseFault .badReg s with rdata := 0 })

/-- R115 with R17 to R28: a 32-bit read at a register's offset completes, returns the register's value field by field and
changes nothing else. -/
def Obligations.BusReadReturnsRegister : Prop :=
  ∀ s : State,
    exec (.busRd .bits32 0x000) s = .next { s with rdata := 0 } ∧
    (∃ v, exec (.busRd .bits32 0x004) s = .next { s with rdata := v } ∧
      v.getLsbD 0 = s.status.created ∧ v.getLsbD 1 = s.status.running ∧ v.getLsbD 2 = s.status.busy ∧
      v.getLsbD 3 = s.status.fault ∧ v.getLsbD 4 = s.status.halted ∧ v.getLsbD 5 = s.status.intEn ∧
      v.getLsbD 6 = s.status.intPend ∧ v.toNat < 2 ^ 7) ∧
    exec (.busRd .bits32 0x008) s = .next { s with rdata := BitVec.ofNat 32 s.cause.code.toNat } ∧
    exec (.busRd .bits32 0x00C) s = .next { s with rdata := s.geom } ∧
    exec (.busRd .bits32 0x010) s = .next { s with rdata := s.srcAddr } ∧
    exec (.busRd .bits32 0x014) s = .next { s with rdata := s.srcLen } ∧
    exec (.busRd .bits32 0x018) s = .next { s with rdata := s.areaP1 } ∧
    exec (.busRd .bits32 0x01C) s = .next { s with rdata := s.areaP2 } ∧
    exec (.busRd .bits32 0x020) s = .next { s with rdata := BitVec.ofNat 32 (s.cfg.w.toNat + 2 ^ 16 * s.cfg.h.toNat) } ∧
    exec (.busRd .bits32 0x024) s =
      .next { s with rdata := BitVec.ofNat 32 (s.scan.row.toNat + 2 ^ 8 * s.scan.plane.toNat) } ∧
    exec (.busRd .bits32 0x028) s = .next { s with rdata := s.desc } ∧
    exec (.busRd .bits32 0x02C) s = .next { s with rdata := BitVec.ofNat 32 s.shamt.toNat } ∧
    (∃ v, exec (.busRd .bits32 0x030) s = .next { s with rdata := v } ∧
      v.extractLsb' 0 4 = s.roster.chPixel ∧ v.extractLsb' 4 4 = s.roster.chFiller ∧
      v.extractLsb' 8 4 = s.roster.chRow ∧ v.extractLsb' 12 4 = s.roster.chOedone ∧
      v.extractLsb' 16 2 = s.roster.smData ∧ v.extractLsb' 18 2 = s.roster.smRow ∧
      v.extractLsb' 20 11 = 0 ∧ v.getLsbD 31 = s.roster.valid) ∧
    exec (.busRd .bits32 0x034) s =
      .next { s with rdata := BitVec.ofNat 32 (s.build.fillerWords % 2 ^ 16 + 2 ^ 16 * 10) }

/-- R115: a 32-bit read at 0x1000 + 4i with i < W x H returns the whole word FB[i] and changes nothing else. H is at
most 64, as in every legal geometry (R117). Offsets past R60's 16 bits are the model's choice (notes/assumptions/28.md). -/
def Obligations.BusReadReturnsFrameBufferWord : Prop :=
  ∀ (s : State) (i : Nat), s.height ≤ 64 → i < s.fbWords →
    exec (.busRd .bits32 (BitVec.ofNat 32 (0x1000 + 4 * i))) s = .next { s with rdata := fbRead i s }

/-- R114 with R20 to R22: a 32-bit write of an argument register sets it whole and changes nothing else. -/
def Obligations.BusWriteSetsArgumentRegister : Prop :=
  ∀ (s : State) (v : Word),
    exec (.busWr .bits32 0x00C v) s = .next { s with geom := v } ∧
    exec (.busWr .bits32 0x010 v) s = .next { s with srcAddr := v } ∧
    exec (.busWr .bits32 0x014 v) s = .next { s with srcLen := v } ∧
    exec (.busWr .bits32 0x018 v) s = .next { s with areaP1 := v } ∧
    exec (.busWr .bits32 0x01C v) s = .next { s with areaP2 := v }

/-- R114 with R17: a 32-bit write of a read-only register or of a frame-buffer word faults BAD_REG and has no other
effect. H is at most 64, as in every legal geometry (R117). Offsets past R60's 16 bits are the model's choice
(notes/assumptions/28.md). -/
def Obligations.BusWriteOfReadOnlyFaults : Prop :=
  ∀ (s : State) (v : Word),
    (∀ o ∈ [0x004, 0x008, 0x020, 0x024, 0x028, 0x02C, 0x030, 0x034],
      exec (.busWr .bits32 (BitVec.ofNat 32 o) v) s = .next (raiseFault .badReg s)) ∧
    (s.height ≤ 64 → ∀ i, i < s.fbWords →
      exec (.busWr .bits32 (BitVec.ofNat 32 (0x1000 + 4 * i)) v) s = .next (raiseFault .badReg s))

/-- R114: a bus write of a command's word to CMD is that command's own instruction. -/
def Obligations.BusWriteToCmdRunsCommand : Prop :=
  ∀ (s : State) (c : Command), exec (.busWr .bits32 0x000 (encodeCommand c)) s = exec c.instr s

/-- R124: while HALTED every CMD write, a command or not, is ignored without a fault. -/
def Obligations.HaltedBlockIgnoresCommands : Prop :=
  ∀ s : State, s.status.halted = true →
    (∀ v : Word, exec (.busWr .bits32 0x000 v) s = .next s ∧ runEncoded (.cmd32 v) s = .next s) ∧
    ∀ i ∈ [Instr.create, .start, .update, .updateBgr, .updateArea], exec i s = .next s

/-! ### CREATE and START -/

/-- R116, R93: CREATE on a legal geometry with enough free resources claims distinct free slots and channels, latches the
geometry, leaves FB unspecified, configures the four channels and changes nothing else. The pools as state, which lose
exactly what CREATE claims (notes/assumptions/14.md), FB's unspecified words as free values (notes/assumptions/10.md) and
the draw counter (notes/assumptions/12.md) are the model's choice. -/
def Obligations.CreateConfiguresBlock : Prop :=
  ∀ (s : State) (w h : Nat), w = (s.geom.extractLsb' 0 16).toNat → h = (s.geom.extractLsb' 16 16).toNat →
    s.status.halted = false → s.status.created = false →
    1 ≤ w → 2 ≤ h → h % 2 = 0 → h ≤ 64 → w * h ≤ s.build.fbCapacity →
    2 ≤ s.freeSm.length → 4 ≤ s.freeCh.length → s.freeSm.Nodup → s.freeCh.Nodup →
    (∀ c ∈ s.freeSm, c < 4) → (∀ c ∈ s.freeCh, c < 16) →
    ∃ t, exec .create s = .next t ∧
      t = { s with
        status := { s.status with intEn := true, created := true }
        cfg := ⟨s.geom.extractLsb' 0 16, s.geom.extractLsb' 16 16⟩
        scan := ⟨0, 0⟩, desc := 0x000000C0, shamt := 0
        chPixel := ⟨.fb 0, true, .dtx, false, 2 * w, 0, false, some .filler, .dtxSpace, false⟩
        chFiller := ⟨.zero, false, .dtx, false, s.build.fillerWords, 0, false, some .row, .dtxSpace, false⟩
        chRow := ⟨.desc, false, .rtx, false, 1, 0, false, none, .rtxSpace, false⟩
        chOedone := ⟨.rrx, false, .sink, false, 1, 0, false, none, .rrxData, true⟩
        roster := t.roster, freeSm := t.freeSm, freeCh := t.freeCh
        fb := t.fb, fbEpoch := t.fbEpoch, draws := t.draws } ∧
      (∀ i, fbRead i t = Config.freeFbWord t.fbEpoch i) ∧
      t.roster.valid = true ∧
      t.roster.smData ≠ t.roster.smRow ∧ (∀ c ∈ heldSlots t.roster, c ∈ s.freeSm) ∧
      (∀ c, c ∈ t.freeSm ↔ c ∈ s.freeSm ∧ c ∉ heldSlots t.roster) ∧
      (heldChannels t.roster).Nodup ∧ (∀ c ∈ heldChannels t.roster, c ∈ s.freeCh) ∧
      (∀ c, c ∈ t.freeCh ↔ c ∈ s.freeCh ∧ c ∉ heldChannels t.roster)

/-- R116 in the order of R125: CREATE's three faults. RESOURCE also sets HALTED (R122) and claims nothing. -/
def Obligations.CreateFaultsInOrder : Prop :=
  ∀ (s : State) (w h : Nat), w = (s.geom.extractLsb' 0 16).toNat → h = (s.geom.extractLsb' 16 16).toNat →
    s.status.halted = false →
    (s.status.created = true → exec .create s = .next (raiseFault .reinit s)) ∧
    (s.status.created = false → (w = 0 ∨ h < 2 ∨ h % 2 ≠ 0 ∨ 64 < h ∨ s.build.fbCapacity < w * h) →
      exec .create s = .next (raiseFault .badGeometry s)) ∧
    (s.status.created = false → ¬ (w = 0 ∨ h < 2 ∨ h % 2 ≠ 0 ∨ 64 < h ∨ s.build.fbCapacity < w * h) →
      (s.freeSm.length < 2 ∨ s.freeCh.length < 4) →
      exec .create s = .next (raiseFault .resource { s with status := { s.status with halted := true } }))

/-- R118: START writes the descriptor of the scan position, patches the shift to 0, re-arms CH_ROW, arms CH_OEDONE and
CH_PIXEL, sets RUNNING and changes nothing else. -/
def Obligations.StartArmsChain : Prop :=
  ∀ s : State, s.status.halted = false → s.status.created = true → s.status.running = false →
    s.chOedone.active = false → s.chPixel.active = false →
    exec .start s = .next { s with
      desc := descOf s.scan.row s.scan.plane
      shamt := 0
      chRow := { s.chRow with read := .desc }
      chOedone := { s.chOedone with write := .sink, active := true, remain := s.chOedone.count }
      chPixel := { s.chPixel with read := .fb 0, active := true, remain := s.chPixel.count }
      status := { s.status with running := true } }

/-- R118 in the order of R125: START's two faults; and INTERNAL where a channel it triggers is active (R95). -/
def Obligations.StartFaultsInOrder : Prop :=
  ∀ s : State, s.status.halted = false →
    (s.status.created = false → exec .start s = .next (raiseFault .notCreated s)) ∧
    (s.status.created = true → s.status.running = true → exec .start s = .next (raiseFault .restart s)) ∧
    (s.status.created = true → s.status.running = false → (s.chOedone.active = true ∨ s.chPixel.active = true) →
      exec .start s = .next (raiseFault .internal s))

/-! ### Ingest -/

/-- R78, R79: an accepted full-frame command queues, for k rising, top pixel k for word 2k and bottom pixel k + HALF * W
for word 2k + 1, in its channel order, sets BUSY and changes nothing else. -/
def Obligations.FullFrameCommandsQueueJob : Prop :=
  ∀ s : State, s.status.halted = false → s.status.created = true → s.status.busy = false →
    s.srcLen.toNat = s.width * s.height * 3 → s.srcAddr.toNat + s.srcLen.toNat ≤ 2 ^ 32 →
    ∀ c ∈ [(Instr.update, Order.rgb), (.updateBgr, .bgr)],
      exec c.1 s = .next { s with
        status := { s.status with busy := true }
        pj := (List.range (s.height / 2 * s.width)).flatMap fun k =>
          [⟨2 * k, s.srcAddr.toNat, k, c.2, false⟩,
           ⟨2 * k + 1, s.srcAddr.toNat, k + s.height / 2 * s.width, c.2, false⟩] }

/-- R80: an accepted UPDATE_AREA queues the addressed pixels row by row in AREA_ORDER, sets BUSY and changes nothing
else. -/
def Obligations.UpdateAreaQueuesJob : Prop :=
  ∀ (s : State) (x1 y1 x2 y2 : Nat),
    x1 = (s.areaP1.extractLsb' 0 16).toNat → y1 = (s.areaP1.extractLsb' 16 16).toNat →
    x2 = (s.areaP2.extractLsb' 0 16).toNat → y2 = (s.areaP2.extractLsb' 16 16).toNat →
    s.status.halted = false → s.status.created = true → s.status.busy = false →
    x1 ≤ x2 → y1 ≤ y2 → x2 < s.width → y2 < s.height →
    s.srcLen.toNat = (x2 - x1 + 1) * (y2 - y1 + 1) * 3 → s.srcAddr.toNat + s.srcLen.toNat ≤ 2 ^ 32 →
    exec .updateArea s = .next { s with
      status := { s.status with busy := true }
      pj := (List.range (y2 - y1 + 1)).flatMap fun dy => (List.range (x2 - x1 + 1)).map fun dx =>
        ⟨fbIndex s.width (s.height / 2) (x1 + dx) (y1 + dy), s.srcAddr.toNat, dy * (x2 - x1 + 1) + dx,
          s.build.areaOrder, false⟩ }

/-- R78 to R80 in the order of R125: the faults of the ingest commands; each leaves all but STATUS.FAULT and CAUSE
unchanged. -/
def Obligations.IngestFaultsInOrder : Prop :=
  ∀ (s : State) (x1 y1 x2 y2 : Nat),
    x1 = (s.areaP1.extractLsb' 0 16).toNat → y1 = (s.areaP1.extractLsb' 16 16).toNat →
    x2 = (s.areaP2.extractLsb' 0 16).toNat → y2 = (s.areaP2.extractLsb' 16 16).toNat →
    s.status.halted = false →
    (s.status.created = false → ∀ i ∈ [Instr.update, .updateBgr, .updateArea],
      exec i s = .next (raiseFault .notCreated s)) ∧
    (s.status.created = true → s.status.busy = true → ∀ i ∈ [Instr.update, .updateBgr, .updateArea],
      exec i s = .next (raiseFault .busy s)) ∧
    (s.status.created = true → s.status.busy = false →
      (∀ i ∈ [Instr.update, .updateBgr],
        (s.srcLen.toNat ≠ s.width * s.height * 3 → exec i s = .next (raiseFault .badLength s)) ∧
        (s.srcLen.toNat = s.width * s.height * 3 → 2 ^ 32 < s.srcAddr.toNat + s.srcLen.toNat →
          exec i s = .next (raiseFault .badSrc s))) ∧
      ((x2 < x1 ∨ y2 < y1 ∨ s.width ≤ x2 ∨ s.height ≤ y2) →
        exec .updateArea s = .next (raiseFault .badArea s)) ∧
      (x1 ≤ x2 → y1 ≤ y2 → x2 < s.width → y2 < s.height →
        (s.srcLen.toNat ≠ (x2 - x1 + 1) * (y2 - y1 + 1) * 3 →
          exec .updateArea s = .next (raiseFault .badLength s)) ∧
        (s.srcLen.toNat = (x2 - x1 + 1) * (y2 - y1 + 1) * 3 → 2 ^ 32 < s.srcAddr.toNat + s.srcLen.toNat →
          exec .updateArea s = .next (raiseFault .badSrc s))))

/-- R78's corner case: the job of a full frame writes the words 0 to W x H - 1 in rising order, each exactly once. -/
def Obligations.FullFrameJobWritesEachWordOnce : Prop :=
  ∀ (base w half : Nat) (o : Order),
    (fullFrameJob base w half o).map PackEntry.fbIndex = List.range (w * (2 * half))

/-- R76: fbindex maps the pixel positions of a legal panel one to one onto the indices below W x H. -/
def Obligations.FbIndexIsBijection : Prop :=
  ∀ w half : Nat, 1 ≤ w →
    (∀ x y, x < w → y < 2 * half → fbIndex w half x y < w * (2 * half)) ∧
    (∀ x y x' y', x < w → y < 2 * half → x' < w → y' < 2 * half →
      fbIndex w half x y = fbIndex w half x' y' → x = x' ∧ y = y') ∧
    (∀ i, i < w * (2 * half) → ∃ x y, x < w ∧ y < 2 * half ∧ fbIndex w half x y = i)

/-- R39: the bytes a command's pending writes will read lie inside [SRC_ADDR, SRC_ADDR + SRC_LEN), whichever ingest
command was issued and whether or not it was accepted. -/
def Obligations.JobReadsOnlyLatchedRange : Prop :=
  ∀ (s t : State), ∀ i ∈ [Instr.update, .updateBgr, .updateArea], s.pj = [] → exec i s = .next t →
    ∀ e ∈ t.pj, ∀ a ∈ entryAddresses e, s.srcAddr.toNat ≤ a ∧ a < s.srcAddr.toNat + s.srcLen.toNat

/-- R81, R77: PACK_WRITE on a pending write whose source bytes are admitted and unchanged stores the packed pixel in one
frame-buffer word, removes the entry, clears BUSY with the last one, and changes nothing else. -/
def Obligations.PackWriteStoresPixel : Prop :=
  ∀ (s : State) (e : PackEntry) (rest : List PackEntry) (b0 b1 b2 : Byte),
    s.pj = e :: rest → e.stale = false → e.fbIndex < s.fbWords →
    admits s.build (e.base + 3 * e.pixel) = true → admits s.build (e.base + 3 * e.pixel + 1) = true →
    admits s.build (e.base + 3 * e.pixel + 2) = true →
    b0 = memRead (e.base + 3 * e.pixel) s → b1 = memRead (e.base + 3 * e.pixel + 1) s →
    b2 = memRead (e.base + 3 * e.pixel + 2) s →
    ∃ t, exec .packWrite s = .next t ∧
      t = { s with
        fb := t.fb
        pj := rest
        status := { s.status with busy := if rest = [] then false else s.status.busy } } ∧
      (e.order = .rgb → fbRead e.fbIndex t = pack s.build b0 b1 b2) ∧
      (e.order = .bgr → fbRead e.fbIndex t = pack s.build b2 b1 b0) ∧
      (∀ j, j ≠ e.fbIndex → fbRead j t = fbRead j s)

/-- R146: where the host has changed a source byte since the command, the word stored is a free draw; the rest of the
step is the same. -/
def Obligations.PackWriteOfChangedSourceIsFree : Prop :=
  ∀ (s : State) (e : PackEntry) (rest : List PackEntry),
    s.pj = e :: rest → e.stale = true → e.fbIndex < s.fbWords →
    (∀ a ∈ entryAddresses e, admits s.build a = true) →
    ∃ t, exec .packWrite s = .next t ∧
      t = { s with
        fb := t.fb
        pj := rest
        draws := s.draws + 1
        status := { s.status with busy := if rest = [] then false else s.status.busy } } ∧
      fbRead e.fbIndex t = Config.freeWord s.draws ∧
      (∀ j, j ≠ e.fbIndex → fbRead j t = fbRead j s)

/-- Headline of the ingest path (R75, R77 to R81): a full-frame command followed by W x H packer steps leaves every panel
pixel's word the packed source pixel, BUSY 0, and all but FB as it was. -/
def Obligations.FullFrameIngestFillsFrame : Prop :=
  ∀ s : State, Inv s → s.status.created = true → s.status.busy = false →
    s.srcLen.toNat = s.width * s.height * 3 → s.srcAddr.toNat + s.srcLen.toNat ≤ 2 ^ 32 →
    (∀ a, s.srcAddr.toNat ≤ a → a < s.srcAddr.toNat + s.srcLen.toNat → admits s.build a = true) →
    ∀ c ∈ [(Instr.update, Order.rgb), (.updateBgr, .bgr)],
      ∃ t, runOps (c.1 :: List.replicate (s.width * s.height) .packWrite) s = .next t ∧
        t = { s with fb := t.fb } ∧
        ∀ x y, x < s.width → y < s.height →
          let a := s.srcAddr.toNat + 3 * (y * s.width + x)
          fbRead (fbIndex s.width (s.height / 2) x y) t =
            if c.2 = .rgb then pack s.build (memRead a s) (memRead (a + 1) s) (memRead (a + 2) s)
            else pack s.build (memRead (a + 2) s) (memRead (a + 1) s) (memRead a s)

/-- R63, R64, R74: the fields of a packed word. -/
def Obligations.PackedWordFields : Prop :=
  ∀ (b : Build) (red green blue : Byte),
    (pack b red green blue).extractLsb' 0 10 = b.gammaLut[red.toNat]'red.isLt ∧
    (pack b red green blue).extractLsb' 10 10 = b.gammaLut[green.toNat]'green.isLt ∧
    (pack b red green blue).extractLsb' 20 10 = b.gammaLut[blue.toNat]'blue.isLt ∧
    (pack b red green blue).extractLsb' 30 2 = 0

/-! ### The transfer chain -/

/-- R98: XFER_PIXEL moves FB[i] to DTX and advances READ; the last word of a run ends it and triggers CH_FILLER. Nothing
else changes. -/
def Obligations.XferPixelMovesWord : Prop :=
  ∀ (s : State) (i n r : Nat),
    s.chPixel = ⟨.fb i, true, .dtx, false, n, r + 1, true, some .filler, .dtxSpace, false⟩ →
    i < s.fbWords → s.dtx.length < s.build.serTxDepth →
    (0 < r → exec .xferPixel s = .next { s with
      dtx := s.dtx ++ [fbRead i s]
      chPixel := { s.chPixel with read := .fb (i + 1), remain := r } }) ∧
    (r = 0 → s.chFiller.active = false → exec .xferPixel s = .next { s with
      dtx := s.dtx ++ [fbRead i s]
      chPixel := { s.chPixel with read := .fb (i + 1), remain := 0, active := false }
      chFiller := { s.chFiller with active := true, remain := s.chFiller.count } })

/-- R99: XFER_FILLER moves a zero word to DTX; the last word of a run ends it and triggers CH_ROW. Nothing else
changes. -/
def Obligations.XferFillerMovesZero : Prop :=
  ∀ (s : State) (n r : Nat),
    s.chFiller = ⟨.zero, false, .dtx, false, n, r + 1, true, some .row, .dtxSpace, false⟩ →
    s.dtx.length < s.build.serTxDepth →
    (0 < r → exec .xferFiller s = .next { s with
      dtx := s.dtx ++ [0]
      chFiller := { s.chFiller with remain := r } }) ∧
    (r = 0 → s.chRow.active = false → exec .xferFiller s = .next { s with
      dtx := s.dtx ++ [0]
      chFiller := { s.chFiller with remain := 0, active := false }
      chRow := { s.chRow with active := true, remain := s.chRow.count } })

/-- R100: XFER_ROW moves DESC to RTX and stops: no chain, no event, nothing else changes. -/
def Obligations.XferRowSendsDescriptor : Prop :=
  ∀ (s : State) (n : Nat),
    s.chRow = ⟨.desc, false, .rtx, false, n, 1, true, none, .rtxSpace, false⟩ →
    s.rtx.length < s.build.serTxDepth →
    exec .xferRow s = .next { s with
      rtx := s.rtx ++ [s.desc]
      chRow := { s.chRow with remain := 0, active := false } }

/-- R101: XFER_OEDONE moves the token at the head of RRX to SINK, stops and sets INT_PEND; nothing else changes. -/
def Obligations.XferOedoneRaisesEvent : Prop :=
  ∀ (s : State) (n : Nat) (token : Word) (rest : List Word),
    s.chOedone = ⟨.rrx, false, .sink, false, n, 1, true, none, .rrxData, true⟩ → s.rrx = token :: rest →
    exec .xferOedone s = .next { s with
      sink := token
      rrx := rest
      chOedone := { s.chOedone with remain := 0, active := false }
      status := { s.status with intPend := true } }

/-- R95, R98, R99, R104: a step that would trigger an active channel faults INTERNAL and changes nothing else. -/
def Obligations.TriggerOfActiveChannelFaultsInternal : Prop :=
  ∀ (s : State) (i n : Nat),
    (s.chPixel = ⟨.fb i, true, .dtx, false, n, 1, true, some .filler, .dtxSpace, false⟩ → i < s.fbWords →
      s.dtx.length < s.build.serTxDepth → s.chFiller.active = true →
      exec .xferPixel s = .next (raiseFault .internal s)) ∧
    (s.chFiller = ⟨.zero, false, .dtx, false, n, 1, true, some .row, .dtxSpace, false⟩ →
      s.dtx.length < s.build.serTxDepth → s.chRow.active = true →
      exec .xferFiller s = .next (raiseFault .internal s)) ∧
    (s.status.running = true → s.status.intEn = true → s.status.intPend = true →
      (s.chOedone.active = true ∨ s.chPixel.active = true) →
      exec .seqStep s = .next (raiseFault .internal s))

/-- R32, R97, R81: an enabled transfer whose record names a location that R97 gives no read or no write for, or a
frame-buffer word that is no location, and a pending write to such a word, stop by name: the spec gives them no effect.
That they stop with these faults is the model's choice (notes/assumptions/9.md). -/
def Obligations.AccessesWithoutRuleStop : Prop :=
  ∀ s : State,
    (∀ c ∈ [(ChanId.pixel, Instr.xferPixel), (.filler, .xferFiller), (.row, .xferRow), (.oedone, .xferOedone)],
      transferEnabled c.1 s = true →
      ((chan c.1 s).read ∈ [Loc.sink, .dtx, .rtx] ∨ ((chan c.1 s).read = .rrx ∧ s.rrx = []) →
        exec c.2 s = .fault .noTransferRule) ∧
      (∀ i, (chan c.1 s).read = .fb i → s.fbWords ≤ i → exec c.2 s = .fault .noFbWord) ∧
      ((chan c.1 s).read ∈ [Loc.zero, .desc] ∨ ((chan c.1 s).read = .rrx ∧ s.rrx ≠ []) ∨
          (∃ i, (chan c.1 s).read = .fb i ∧ i < s.fbWords) →
        (chan c.1 s).write ∈ [Loc.zero, .desc, .rrx] ∨ (∃ i, (chan c.1 s).write = .fb i) →
        exec c.2 s = .fault .noTransferRule)) ∧
    (∀ e rest, s.pj = e :: rest → packEnabled s = true → s.fbWords ≤ e.fbIndex →
      exec .packWrite s = .fault .noFbWord)

/-- R39, R81, R87, R89, R90, R97, R104: an agent whose step is not enabled has no step. That its turn then passes and
changes nothing is the model's choice (notes/assumptions/7.md). -/
def Obligations.AgentsWithoutStepWait : Prop :=
  ∀ s : State,
    (s.pj = [] → exec .packWrite s = .next s) ∧
    (∀ e rest, s.pj = e :: rest → (∃ a ∈ entryAddresses e, admits s.build a = false) → exec .packWrite s = .next s) ∧
    (∀ c ∈ [(ChanId.pixel, Instr.xferPixel), (.filler, .xferFiller), (.row, .xferRow), (.oedone, .xferOedone)],
      ((chan c.1 s).active = false ∨ (chan c.1 s).remain = 0 ∨
        ((chan c.1 s).pace = .dtxSpace ∧ s.build.serTxDepth ≤ s.dtx.length) ∨
        ((chan c.1 s).pace = .rtxSpace ∧ s.build.serTxDepth ≤ s.rtx.length) ∨
        ((chan c.1 s).pace = .rrxData ∧ s.rrx = [])) → exec c.2 s = .next s) ∧
    ((s.status.running = false ∨ s.status.intEn = false ∨ s.status.intPend = false) → exec .seqStep s = .next s) ∧
    (s.dtx = [] → exec .serDataPop s = .next s) ∧
    (s.phase ≠ .idle ∨ s.rtx = [] → exec .serRowTake s = .next s) ∧
    (s.phase = .idle ∨ s.build.serRxDepth ≤ s.rrx.length → exec .serRowDone s = .next s)

/-! ### The scan stepper and the serializers -/

/-- R104: the sequencer's step. With (r, p) the next position, it acknowledges the event, moves SCANPOS, patches the shift
where the plane changes, recomputes DESC, re-arms CH_ROW, CH_OEDONE and CH_PIXEL, and changes nothing else. -/
def Obligations.SeqStepAdvancesScan : Prop :=
  ∀ (s : State) (r p : Nat),
    s.status.running = true → s.status.intEn = true → s.status.intPend = true →
    s.chOedone.active = false → s.chPixel.active = false → s.height / 2 ≤ 32 →
    r = (if s.scan.row.toNat + 1 ≥ s.height / 2 then 0 else s.scan.row.toNat + 1) →
    p = (if s.scan.row.toNat + 1 ≥ s.height / 2 then
      (if s.scan.plane.toNat + 1 ≥ 10 then 0 else s.scan.plane.toNat + 1) else s.scan.plane.toNat) →
    exec .seqStep s = .next { s with
      status := { s.status with intPend := false }
      scan := ⟨BitVec.ofNat 5 r, BitVec.ofNat 4 p⟩
      shamt := if p = s.scan.plane.toNat then s.shamt else BitVec.ofNat 4 p
      desc := BitVec.ofNat 32 (r + ((6 <<< p) <<< 5))
      chRow := { s.chRow with read := .desc }
      chOedone := { s.chOedone with write := .sink, active := true, remain := s.chOedone.count }
      chPixel := { s.chPixel with read := .fb (r * s.width * 2), active := true, remain := s.chPixel.count } }

/-- R106: from any position with ROW = 0, after HALF of the sequencer's steps ROW is 0 again and PLANE has become
(PLANE + 1) mod 10. -/
def Obligations.RowSweepAdvancesPlane : Prop :=
  ∀ (half : Nat) (f : Nat → State), 1 ≤ half → half ≤ 32 → ScanRun half f →
    (f 0).scan.row = 0 → (f 0).scan.plane.toNat < 10 →
    (f half).scan.row = 0 ∧ (f half).scan.plane.toNat = ((f 0).scan.plane.toNat + 1) % 10

/-- R107: from (0, 0), after k of the sequencer's steps within one scan cycle the position is (k mod HALF, k div HALF), so
every position occurs after exactly one step count, HALF x p + r, and none before the end of the cycle is (0, 0) again;
after HALF x 10 steps it is. -/
def Obligations.ScanCycleVisitsEveryPosition : Prop :=
  ∀ (half : Nat) (f : Nat → State), 1 ≤ half → half ≤ 32 → ScanRun half f → (f 0).scan = ⟨0, 0⟩ →
    (∀ k, k < half * 10 → (f k).scan.row.toNat = k % half ∧ (f k).scan.plane.toNat = k / half) ∧
    (∀ k, 0 < k → k < half * 10 → (f k).scan ≠ ⟨0, 0⟩) ∧
    (∀ r p, r < half → p < 10 → ∀ k, k < half * 10 →
      ((f k).scan.row.toNat = r ∧ (f k).scan.plane.toNat = p ↔ k = half * p + r)) ∧
    (f (half * 10)).scan = ⟨0, 0⟩

/-- R66, R103: row(d) = d[4:0] and pw(d) = d[31:5]; the descriptor of (row, plane) is row + (6 << plane) << 5, and its
two fields read back as the row and 6 << plane. -/
def Obligations.DescriptorDecodesBack : Prop :=
  (∀ d : Word, descRow d = d.extractLsb' 0 5 ∧ descPw d = d.extractLsb' 5 27) ∧
  ∀ (row : BitVec 5) (plane : BitVec 4), plane.toNat < 10 →
    (descOf row plane).toNat = row.toNat + ((6 <<< plane.toNat) <<< 5) ∧
    descRow (descOf row plane) = row ∧ (descPw (descOf row plane)).toNat = 6 <<< plane.toNat

/-- R86, R108: PATCH_SHIFT(p) sets SHAMT and changes nothing else where SEQ_STEP and START perform it, in a created block
that is not halted with PLANE = p, and it has no step elsewhere. In one scan cycle the sequencer changes SHAMT ten times,
once at each step that ends a row sweep. That the patch is also a turn of its own is the model's choice
(notes/assumptions/5.md): with SHAMT = PLANE that turn changes nothing. -/
def Obligations.PatchShiftSetsShamt : Prop :=
  (∀ (s : State) (p : BitVec 4),
    (s.status.created = true → s.status.halted = false → p = s.scan.plane →
      exec (.patchShift p) s = .next { s with shamt := p }) ∧
    (s.status.created = false ∨ s.status.halted = true ∨ p ≠ s.scan.plane ∨ ShiftInStep s →
      exec (.patchShift p) s = .next s)) ∧
  ∀ (half : Nat) (f : Nat → State), 1 ≤ half → half ≤ 32 → ScanRun half f → (∀ k, ShiftInStep (f k)) →
    (f 0).scan = ⟨0, 0⟩ →
    (∀ k, k < half * 10 → ((f (k + 1)).shamt ≠ (f k).shamt ↔ (k + 1) % half = 0)) ∧
    (List.range (half * 10)).countP (fun k => decide ((f (k + 1)).shamt ≠ (f k).shamt)) = 10

/-- R87: SER_DATA_POP logs the head of DTX with the shift in force and the lane of its parity, and changes no block state
but DTX; the colour bits it shifts out are w[OFF_c + s]. -/
def Obligations.SerDataPopLogsWord : Prop :=
  ∀ (s : State) (w : Word) (rest : List Word), s.dtx = w :: rest →
    exec .serDataPop s = .next { s with
      dtx := rest
      ds := s.ds ++ [⟨w, s.shamt, if s.popped % 2 = 0 then .top else .bottom⟩]
      popped := s.popped + 1 } ∧
    ∀ l, colourBits ⟨w, s.shamt, l⟩ =
      (w.getLsbD (0 + s.shamt.toNat), w.getLsbD (10 + s.shamt.toNat), w.getLsbD (20 + s.shamt.toNat))

/-- R89: SER_ROW_TAKE takes and logs the head of RTX and drives its row and pulse width while it is busy; nothing else
changes. -/
def Obligations.SerRowTakeShowsDescriptor : Prop :=
  ∀ (s : State) (d : Word) (rest : List Word), s.phase = .idle → s.rtx = d :: rest →
    exec .serRowTake s = .next { s with rtx := rest, rs := s.rs ++ [d], phase := .busy d } ∧
    panelOutput { s with rtx := rest, rs := s.rs ++ [d], phase := .busy d } =
      some (d.extractLsb' 0 5, d.extractLsb' 5 27)

/-- R90: SER_ROW_DONE pushes one completion token, a free draw, and returns to IDLE; nothing else changes. -/
def Obligations.SerRowDonePushesToken : Prop :=
  ∀ (s : State) (d : Word), s.phase = .busy d → s.rrx.length < s.build.serRxDepth →
    exec .serRowDone s = .next { s with
      rrx := s.rrx ++ [Config.freeWord s.draws]
      draws := s.draws + 1
      phase := .idle }

/-- R85, R87: shifting by a plane selects that bit of each corrected channel of a packed word. -/
def Obligations.ShiftSelectsBitPlane : Prop :=
  ∀ (b : Build) (red green blue : Byte) (p : BitVec 4) (l : Lane), p.toNat < 10 →
    colourBits ⟨pack b red green blue, p, l⟩ =
      ((gamma b red).getLsbD p.toNat, (gamma b green).getLsbD p.toNat, (gamma b blue).getLsbD p.toNat)

/-! ### The whole machine -/

/-- Headline: every step keeps the invariant, from every state that has it, whatever the next input. -/
def Obligations.StepKeepsInvariant : Prop :=
  ∀ s t : State, Inv s → step s = .next t → Inv t

/-- R110, R126: from every state with the invariant no step stops the machine with a fault, and none records
INTERNAL. -/
def Obligations.ScanPathNeverFails : Prop :=
  ∀ s : State, Inv s →
    (∀ f, step s ≠ .fault f) ∧ (∀ t, step s = .next t → t.cause = .internal → s.cause = .internal)

/-- R109: while the block runs, the scan path is in exactly one of the seven positions, RTX and RRX hold at most one
word, and CH_OEDONE is active with no event pending in every position but the last; START enters the first, and the
sequencer's step moves from the last to the first. -/
def Obligations.ScanPathIsAtOnePosition : Prop :=
  ∀ s : State, Inv s →
    (s.status.running = true →
      (∃ p, At p s ∧ ∀ q, At q s → q = p) ∧ s.rtx.length ≤ 1 ∧ s.rrx.length ≤ 1 ∧
      (s.chOedone.active = true ↔ s.status.intPend = false)) ∧
    (∀ t, s.status.running = false → exec .start s = .next t → t.status.running = true → At .pixelRun t) ∧
    (s.status.running = true → At .eventPending s → ∃ t, exec .seqStep s = .next t ∧ At .pixelRun t)

/-- R50, R102: while the block runs, an operation either leaves the scan path where it stands or is the one operation
that moves on from there, and then it moves to the next position. -/
def Obligations.ScanPathMovesInOrder : Prop :=
  ∀ (s t : State) (p : ScanPosition) (i : Instr), Inv s → s.status.running = true → At p s → i.wellFormed = true →
    exec i s = .next t → ∃ q, At q t ∧ (q = p ∨ (q = p.succ ∧ i = p.operation))

/-- R149's enabledness: while the block runs, either the operation of the position it stands at or SER_DATA_POP has a step
that changes the state, so the scan never deadlocks. -/
def Obligations.RunningScanNeverDeadlocks : Prop :=
  ∀ (s : State) (p : ScanPosition), Inv s → s.status.running = true → At p s →
    ∃ i t, (i = p.operation ∨ i = .serDataPop) ∧ exec i s = .next t ∧ t ≠ s

/-- R149 with R107: under weak fairness, after START every row period ends, the sequencer's step beginning the next, and
the scan position runs through the whole cycle for ever. -/
def Obligations.FairScanRunsForEver : Prop :=
  ∀ (turn : Nat → Input) (f : Nat → State), Inv (f 0) → (f 0).status.running = true → FairRun turn f →
    (∀ n, ∃ k, n ≤ k ∧ At .eventPending (f k) ∧ At .pixelRun (f (k + 1))) ∧
    ∀ n r p, r < (f 0).half → p < 10 →
      ∃ k, n ≤ k ∧ (f k).scan.row.toNat = r ∧ (f k).scan.plane.toNat = p

/-- R111, R142, R143: when CH_ROW sends, the word it sends is the descriptor of the current position; while CH_PIXEL runs,
the words it has still to read are the last REMAIN of the 2W words of the current row address; and from the completion of
CH_FILLER until the next CH_PIXEL run DTX holds only filler words, so every genuine word of the row has been popped before
its descriptor is sent. -/
def Obligations.DescriptorMatchesRowSent : Prop :=
  ∀ s : State, Inv s → s.status.running = true →
    (At .rowSend s → ∃ t, exec .xferRow s = .next t ∧ t.rtx = [descOf s.scan.row s.scan.plane]) ∧
    (At .pixelRun s → ∃ i, s.chPixel.read = .fb i ∧ i + s.chPixel.remain = 2 * s.width * (s.scan.row.toNat + 1) ∧
      0 < s.chPixel.remain ∧ s.chPixel.remain ≤ 2 * s.width) ∧
    ∀ p, At p s → p ≠ .pixelRun → p ≠ .fillerRun → ∀ w ∈ s.dtx, w = 0

/-- R88: every step keeps the lanes paired, so that each row's first word lands on TOP. -/
def Obligations.StepKeepsLanesPaired : Prop :=
  ∀ s t : State, Inv s → LanesPaired s → step s = .next t → LanesPaired t

/-- R108: every step keeps SHAMT equal to PLANE. -/
def Obligations.StepKeepsShiftInStep : Prop :=
  ∀ s t : State, Inv s → ShiftInStep s → step s = .next t → ShiftInStep t

/-- R113: after START, SCANPOS, DESC and SHIFT are written by no agent but the sequencer, and the sequencer never touches
the frame buffer. -/
def Obligations.OnlySequencerWritesScanState : Prop :=
  ∀ (s t : State) (i : Instr), Inv s → s.status.running = true → exec i s = .next t →
    (i.agent ≠ .sequencer → t.scan = s.scan ∧ t.desc = s.desc ∧ t.shamt = s.shamt) ∧
    (i.agent = .sequencer → ∀ k, fbRead k t = fbRead k s)

/-- R123, R18: no step but a reset clears CREATED, RUNNING, FAULT, HALTED or INT_EN, and none changes a recorded
CAUSE. -/
def Obligations.StickyFlagsStaySet : Prop :=
  ∀ s t : State, step s = .next t → (∀ rest, s.input ≠ .reset :: rest) →
    (s.status.created = true → t.status.created = true) ∧ (s.status.running = true → t.status.running = true) ∧
    (s.status.fault = true → t.status.fault = true ∧ t.cause = s.cause) ∧
    (s.status.halted = true → t.status.halted = true) ∧ (s.status.intEn = true → t.status.intEn = true)

/-- R128: INT_PEND is cleared only by SEQ_STEP and by reset. -/
def Obligations.OnlySeqStepClearsPendingEvent : Prop :=
  ∀ s t : State, step s = .next t → s.status.intPend = true → t.status.intPend = false →
    (∃ rest, s.input = .reset :: rest) ∨ (∃ e rest, s.input = .op e :: rest ∧ decode e = .ok .seqStep)

/-- R29, R31: after CREATE no operation but PACK_WRITE changes the frame buffer, and none but XFER_OEDONE changes
SINK. -/
def Obligations.OnlyPackerWritesFrameBuffer : Prop :=
  ∀ (s t : State) (i : Instr), Inv s → s.status.created = true → exec i s = .next t →
    (i ≠ .packWrite → ∀ k, fbRead k t = fbRead k s) ∧ (i ≠ .xferOedone → t.sink = s.sink)

/-- R9, R11, R23, R37: no operation writes host source memory or a build parameter, GAMMA_LUT among them, and none changes
CFG or the roster after CREATE. -/
def Obligations.ConstantsStayConstant : Prop :=
  ∀ (s t : State) (i : Instr), exec i s = .next t →
    t.build = s.build ∧ (∀ a, memRead a t = memRead a s) ∧ t.input = s.input ∧
    (s.status.created = true → t.cfg = s.cfg ∧ t.roster = s.roster)
end

