-- ==== Sys2Proof/Laws/Config.lean ====
section
/-! SUPPORT. The build parameters: every constrained build is admissible, an admissible one is left as it is, and
GAMMA_REF is the table spec/40_gamma_ingest.md R73 gives. -/

namespace Sys2Proof

theorem runningMax_le (lut : Vector Intensity 256) (i : Nat) : runningMax lut i ≤ 1023 := by
  induction i with
  | zero => simp [runningMax]
  | succ i ih =>
    have := (lut.toList.getD (i + 1) 0).isLt
    simp only [runningMax]
    omega

theorem constrainGamma_toNat (lut : Vector Intensity 256) (i : Nat) (h : i < 256) :
    ((constrainGamma lut)[i]).toNat = if i = 255 then 1023 else runningMax lut i := by
  have := runningMax_le lut i
  simp only [constrainGamma, Vector.getElem_ofFn, BitVec.toNat_ofNat, Config.gammaMax]
  split <;> omega

/-- The constrained table meets R71. -/
theorem constrainGamma_admissible (lut : Vector Intensity 256) : GammaAdmissible (constrainGamma lut) := by
  refine ⟨by simp [constrainGamma_toNat, runningMax], by simp [constrainGamma_toNat], fun i h => ?_⟩
  have := runningMax_le lut i
  rw [constrainGamma_toNat _ _ (by omega), constrainGamma_toNat _ _ (by omega)]
  by_cases h' : i + 1 = 255
  · simp only [h', if_true]
    split <;> omega
  · simp only [if_neg h', if_neg (Nat.ne_of_lt h), runningMax]
    omega

theorem runningMax_of_admissible {lut : Vector Intensity 256} (h : GammaAdmissible lut) :
    ∀ i, (hi : i < 256) → runningMax lut i = lut[i].toNat
  | 0, _ => h.1.symm
  | i + 1, hi => by
    have ih := runningMax_of_admissible h i (by omega)
    have hm := h.2.2 i (by omega)
    have hget : lut.toList.getD (i + 1) 0 = lut[i + 1] := by simp [List.getD, hi]
    simp only [runningMax, ih, hget]
    omega

/-- An admissible table is its own constrained form: the constraint loses no table R71 admits. -/
theorem constrainGamma_of_admissible {lut : Vector Intensity 256} (h : GammaAdmissible lut) :
    constrainGamma lut = lut := by
  ext i hi : 1
  apply BitVec.eq_of_toNat_eq
  rw [constrainGamma_toNat _ _ hi]
  split
  · rename_i h255
    subst h255
    exact h.2.1.symm
  · exact runningMax_of_admissible h i hi

/-- Every constrained build meets the spec's constraints. -/
theorem Build.constrain_admissible (b : Build) : b.constrain.Admissible where
  gamma := constrainGamma_admissible _
  txDepth := by simp only [constrain]; omega
  rxDepth := by simp only [constrain]; omega
  fillerEven := by simp only [constrain]; omega
  fillerDepth := by simp only [constrain]; omega
  fillerField := by simp only [constrain]; omega
  channels := by simp only [constrain]; omega
  slots := by simp only [constrain]; omega

/-- An admissible build is its own constrained form: `Config.build` may be any build the spec admits. -/
theorem Build.constrain_of_admissible {b : Build} (h : b.Admissible) : b.constrain = b := by
  obtain ⟨lut, filler, tx, rx, cap, order, ch, sm, pins, ranges⟩ := b
  obtain ⟨hg, h1, h2, h3, h4, h5, h6, h7⟩ := h
  simp only [constrain, Build.mk.injEq, constrainGamma_of_admissible hg, true_and]
  simp only at h1 h2 h3 h4 h5 h6 h7
  refine ⟨?_, ?_, ?_, ?_, ?_, trivial⟩ <;> omega

theorem Config.build_admissible : Config.build.Admissible := Build.constrain_admissible _

/-- R73: every entry k of GAMMA_REF is floor(1023 * (i / 255)^2.2 + 1/2), that is (2k - 1)^5 * 255^11 <= 2046^5 * i^11 <
(2k + 1)^5 * 255^11 (and 0 only for the bound below 1/2). -/
theorem gammaRef_isRounded : ∀ i : Fin 256,
    let k := (Config.gammaRef[i.val]).toNat
    (k = 0 ∨ (2 * k - 1) ^ 5 * 255 ^ 11 ≤ 2046 ^ 5 * i.val ^ 11) ∧ 2046 ^ 5 * i.val ^ 11 < (2 * k + 1) ^ 5 * 255 ^ 11 := by
  decide +kernel

theorem gammaRef_monotone : ∀ i : Fin 255,
    (Config.gammaRef[i.val]).toNat ≤ (Config.gammaRef[i.val + 1]).toNat := by
  decide +kernel

/-- R73: GAMMA_REF satisfies R71. -/
theorem gammaRef_admissible : GammaAdmissible Config.gammaRef :=
  ⟨by decide +kernel, by decide +kernel, fun i h => gammaRef_monotone ⟨i, h⟩⟩

theorem Config.vectorBuild_admissible : Config.vectorBuild.Admissible where
  gamma := gammaRef_admissible
  txDepth := by decide
  rxDepth := by decide
  fillerEven := by decide
  fillerDepth := by decide
  fillerField := by decide
  channels := by decide
  slots := by decide

end Sys2Proof
end

