-- ==== Sys2Proof/Laws/Fields.lean ====
section
/-! SUPPORT. Bit fields: what each bit of a word built by `placeField` is, so that proofs about registers, headers, packed
words and descriptors work bit by bit. -/

namespace Sys2Proof

@[simp] theorem placeField_getLsbD {n : Nat} (pos : Nat) (v : BitVec n) (i : Nat) :
    (placeField pos v).getLsbD i = (decide (i < 32) && decide (pos ≤ i) && v.getLsbD (i - pos)) := by
  simp only [placeField, BitVec.getLsbD_shiftLeft, BitVec.getLsbD_setWidth]
  by_cases h1 : i < 32
  · by_cases h2 : i < pos
    · simp [h2]
    · simp [h1, h2, Nat.not_lt.1 h2, Nat.lt_of_le_of_lt (Nat.sub_le i pos) h1]
  · simp [h1]

@[simp] theorem placeField_getElem {n : Nat} (pos : Nat) (v : BitVec n) (i : Nat) (h : i < 32) :
    (placeField pos v)[i] = (decide (pos ≤ i) && v.getLsbD (i - pos)) := by
  rw [← BitVec.getLsbD_eq_getElem h, placeField_getLsbD]
  simp [h]

theorem bit_of_ofBool (b : Bool) (i : Nat) : (BitVec.ofBool b).getLsbD i = (decide (i = 0) && b) := by
  cases b <;> simp [BitVec.ofBool]

/-- The field placed at 0 has the value's own number. -/
theorem placeField_zero_toNat {n : Nat} (h : n ≤ 32) (v : BitVec n) : (placeField 0 v).toNat = v.toNat := by
  have := v.isLt
  have h2 : 2 ^ n ≤ 2 ^ 32 := Nat.pow_le_pow_right (by omega) h
  simp only [placeField, BitVec.shiftLeft_zero, BitVec.toNat_setWidth]
  omega

/-- A field above every bit of `a` adds to it. -/
theorem or_placeField_toNat {n : Nat} (a : Word) (pos : Nat) (v : BitVec n) (ha : a.toNat < 2 ^ pos)
    (hv : v.toNat * 2 ^ pos < 2 ^ 32) : (a ||| placeField pos v).toNat = a.toNat + v.toNat * 2 ^ pos := by
  have hp : (placeField pos v).toNat = v.toNat <<< pos := by
    have h1 : v.toNat < 2 ^ 32 := Nat.lt_of_le_of_lt (Nat.le_mul_of_pos_right _ (Nat.two_pow_pos pos)) hv
    simp only [placeField, BitVec.toNat_shiftLeft, BitVec.toNat_setWidth, Nat.mod_eq_of_lt h1, Nat.shiftLeft_eq,
      Nat.mod_eq_of_lt hv]
  rw [BitVec.toNat_or, hp, Nat.or_comm, ← Nat.shiftLeft_add_eq_or_of_lt ha, Nat.shiftLeft_eq, Nat.add_comm]

/-! ### The byte offset of a bus transaction -/

/-- A byte offset bit by bit. -/
theorem busOffset_getLsbD (header : Word) (high : BitVec 16) (i : Nat) : (busOffset header high).getLsbD i =
    if i < 16 then header.getLsbD i else high.getLsbD (i - 16) := by
  by_cases hl : i < 16
  · simp [busOffset, hl, show i < 32 by omega]
  · by_cases hi : i < 32
    · simp [busOffset, hl, hi, show 16 ≤ i by omega]
    · simp [busOffset, hl, hi, show 16 ≤ i - 16 by omega]

@[simp] theorem busOffset_low (header : Word) (high : BitVec 16) :
    (busOffset header high).extractLsb' 0 16 = header.extractLsb' 0 16 := by
  apply BitVec.eq_of_getLsbD_eq
  intro i hi
  simp only [BitVec.getLsbD_extractLsb', busOffset_getLsbD, Nat.zero_add, hi, if_true]

@[simp] theorem busOffset_high (header : Word) (high : BitVec 16) :
    (busOffset header high).extractLsb' 16 16 = high := by
  apply BitVec.eq_of_getLsbD_eq
  intro i hi
  simp only [BitVec.getLsbD_extractLsb', busOffset_getLsbD, hi, show ¬ 16 + i < 16 by omega, if_false,
    Nat.add_sub_cancel_left, decide_true, Bool.true_and]

/-- An offset is its lower half in a header and its upper half beside it. -/
theorem busOffset_of_halves {header offset : Word} (h : header.extractLsb' 0 16 = offset.extractLsb' 0 16) :
    busOffset header (offset.extractLsb' 16 16) = offset := by
  apply BitVec.eq_of_getLsbD_eq
  intro i hi
  rw [busOffset_getLsbD]
  split
  · rename_i hl
    have hb := congrArg (fun v => v.getLsbD i) h
    simpa [BitVec.getLsbD_extractLsb', hl] using hb
  · rename_i hl
    simp [show i - 16 < 16 by omega, show 16 + (i - 16) = i by omega]

end Sys2Proof

namespace Sys2Proof.Machine

/-- On a panel of a legal height every word's window offset has 32 bits (spec/10_state.md R17). -/
theorem fbOffset_toNat {s : State} {i : Nat} (hh : s.height ≤ 64) (hi : i < s.fbWords) :
    (BitVec.ofNat 32 (0x1000 + 4 * i)).toNat = 0x1000 + 4 * i := by
  have hw : s.width < 2 ^ 16 := s.cfg.w.isLt
  have hp : s.fbWords ≤ 2 ^ 16 * 64 := Nat.mul_le_mul (Nat.le_of_lt hw) hh
  rw [BitVec.toNat_ofNat]
  exact Nat.mod_eq_of_lt (by omega)

end Sys2Proof.Machine
end

