-- ==== Sys2Proof/Laws/State.lean ====
section
/-! SUPPORT. One lemma per field per shared update: what each update of `State` leaves in each field, true by rfl, so that
no later proof unfolds a record update. -/

namespace Sys2Proof.Machine

/-! ### Recording a fault -/

section
variable (s : State) (c : Cause)

@[simp] theorem raiseFault_build : (raiseFault c s).build = s.build := rfl
@[simp] theorem raiseFault_status : (raiseFault c s).status = { s.status with fault := true } := rfl
@[simp] theorem raiseFault_cause : (raiseFault c s).cause = if s.status.fault then s.cause else c := rfl
@[simp] theorem raiseFault_geom : (raiseFault c s).geom = s.geom := rfl
@[simp] theorem raiseFault_srcAddr : (raiseFault c s).srcAddr = s.srcAddr := rfl
@[simp] theorem raiseFault_srcLen : (raiseFault c s).srcLen = s.srcLen := rfl
@[simp] theorem raiseFault_areaP1 : (raiseFault c s).areaP1 = s.areaP1 := rfl
@[simp] theorem raiseFault_areaP2 : (raiseFault c s).areaP2 = s.areaP2 := rfl
@[simp] theorem raiseFault_cfg : (raiseFault c s).cfg = s.cfg := rfl
@[simp] theorem raiseFault_scan : (raiseFault c s).scan = s.scan := rfl
@[simp] theorem raiseFault_desc : (raiseFault c s).desc = s.desc := rfl
@[simp] theorem raiseFault_shamt : (raiseFault c s).shamt = s.shamt := rfl
@[simp] theorem raiseFault_roster : (raiseFault c s).roster = s.roster := rfl
@[simp] theorem raiseFault_fb : (raiseFault c s).fb = s.fb := rfl
@[simp] theorem raiseFault_fbEpoch : (raiseFault c s).fbEpoch = s.fbEpoch := rfl
@[simp] theorem raiseFault_sink : (raiseFault c s).sink = s.sink := rfl
@[simp] theorem raiseFault_chPixel : (raiseFault c s).chPixel = s.chPixel := rfl
@[simp] theorem raiseFault_chFiller : (raiseFault c s).chFiller = s.chFiller := rfl
@[simp] theorem raiseFault_chRow : (raiseFault c s).chRow = s.chRow := rfl
@[simp] theorem raiseFault_chOedone : (raiseFault c s).chOedone = s.chOedone := rfl
@[simp] theorem raiseFault_dtx : (raiseFault c s).dtx = s.dtx := rfl
@[simp] theorem raiseFault_rtx : (raiseFault c s).rtx = s.rtx := rfl
@[simp] theorem raiseFault_rrx : (raiseFault c s).rrx = s.rrx := rfl
@[simp] theorem raiseFault_pj : (raiseFault c s).pj = s.pj := rfl
@[simp] theorem raiseFault_phase : (raiseFault c s).phase = s.phase := rfl
@[simp] theorem raiseFault_popped : (raiseFault c s).popped = s.popped := rfl
@[simp] theorem raiseFault_ds : (raiseFault c s).ds = s.ds := rfl
@[simp] theorem raiseFault_rs : (raiseFault c s).rs = s.rs := rfl
@[simp] theorem raiseFault_mem : (raiseFault c s).mem = s.mem := rfl
@[simp] theorem raiseFault_freeCh : (raiseFault c s).freeCh = s.freeCh := rfl
@[simp] theorem raiseFault_freeSm : (raiseFault c s).freeSm = s.freeSm := rfl
@[simp] theorem raiseFault_rdata : (raiseFault c s).rdata = s.rdata := rfl
@[simp] theorem raiseFault_draws : (raiseFault c s).draws = s.draws := rfl
@[simp] theorem raiseFault_input : (raiseFault c s).input = s.input := rfl

end

/-! ### The pending event -/

section
variable (s : State)

@[simp] theorem setIntPend_build : (setIntPend s).build = s.build := rfl
@[simp] theorem setIntPend_status : (setIntPend s).status = { s.status with intPend := true } := rfl
@[simp] theorem setIntPend_cause : (setIntPend s).cause = s.cause := rfl
@[simp] theorem setIntPend_geom : (setIntPend s).geom = s.geom := rfl
@[simp] theorem setIntPend_srcAddr : (setIntPend s).srcAddr = s.srcAddr := rfl
@[simp] theorem setIntPend_srcLen : (setIntPend s).srcLen = s.srcLen := rfl
@[simp] theorem setIntPend_areaP1 : (setIntPend s).areaP1 = s.areaP1 := rfl
@[simp] theorem setIntPend_areaP2 : (setIntPend s).areaP2 = s.areaP2 := rfl
@[simp] theorem setIntPend_cfg : (setIntPend s).cfg = s.cfg := rfl
@[simp] theorem setIntPend_scan : (setIntPend s).scan = s.scan := rfl
@[simp] theorem setIntPend_desc : (setIntPend s).desc = s.desc := rfl
@[simp] theorem setIntPend_shamt : (setIntPend s).shamt = s.shamt := rfl
@[simp] theorem setIntPend_roster : (setIntPend s).roster = s.roster := rfl
@[simp] theorem setIntPend_fb : (setIntPend s).fb = s.fb := rfl
@[simp] theorem setIntPend_fbEpoch : (setIntPend s).fbEpoch = s.fbEpoch := rfl
@[simp] theorem setIntPend_sink : (setIntPend s).sink = s.sink := rfl
@[simp] theorem setIntPend_chPixel : (setIntPend s).chPixel = s.chPixel := rfl
@[simp] theorem setIntPend_chFiller : (setIntPend s).chFiller = s.chFiller := rfl
@[simp] theorem setIntPend_chRow : (setIntPend s).chRow = s.chRow := rfl
@[simp] theorem setIntPend_chOedone : (setIntPend s).chOedone = s.chOedone := rfl
@[simp] theorem setIntPend_dtx : (setIntPend s).dtx = s.dtx := rfl
@[simp] theorem setIntPend_rtx : (setIntPend s).rtx = s.rtx := rfl
@[simp] theorem setIntPend_rrx : (setIntPend s).rrx = s.rrx := rfl
@[simp] theorem setIntPend_pj : (setIntPend s).pj = s.pj := rfl
@[simp] theorem setIntPend_phase : (setIntPend s).phase = s.phase := rfl
@[simp] theorem setIntPend_popped : (setIntPend s).popped = s.popped := rfl
@[simp] theorem setIntPend_ds : (setIntPend s).ds = s.ds := rfl
@[simp] theorem setIntPend_rs : (setIntPend s).rs = s.rs := rfl
@[simp] theorem setIntPend_mem : (setIntPend s).mem = s.mem := rfl
@[simp] theorem setIntPend_freeCh : (setIntPend s).freeCh = s.freeCh := rfl
@[simp] theorem setIntPend_freeSm : (setIntPend s).freeSm = s.freeSm := rfl
@[simp] theorem setIntPend_rdata : (setIntPend s).rdata = s.rdata := rfl
@[simp] theorem setIntPend_draws : (setIntPend s).draws = s.draws := rfl
@[simp] theorem setIntPend_input : (setIntPend s).input = s.input := rfl

end

/-! ### Acknowledging the event -/

section
variable (s : State)

@[simp] theorem clearIntPend_build : (clearIntPend s).build = s.build := rfl
@[simp] theorem clearIntPend_status : (clearIntPend s).status = { s.status with intPend := false } := rfl
@[simp] theorem clearIntPend_cause : (clearIntPend s).cause = s.cause := rfl
@[simp] theorem clearIntPend_geom : (clearIntPend s).geom = s.geom := rfl
@[simp] theorem clearIntPend_srcAddr : (clearIntPend s).srcAddr = s.srcAddr := rfl
@[simp] theorem clearIntPend_srcLen : (clearIntPend s).srcLen = s.srcLen := rfl
@[simp] theorem clearIntPend_areaP1 : (clearIntPend s).areaP1 = s.areaP1 := rfl
@[simp] theorem clearIntPend_areaP2 : (clearIntPend s).areaP2 = s.areaP2 := rfl
@[simp] theorem clearIntPend_cfg : (clearIntPend s).cfg = s.cfg := rfl
@[simp] theorem clearIntPend_scan : (clearIntPend s).scan = s.scan := rfl
@[simp] theorem clearIntPend_desc : (clearIntPend s).desc = s.desc := rfl
@[simp] theorem clearIntPend_shamt : (clearIntPend s).shamt = s.shamt := rfl
@[simp] theorem clearIntPend_roster : (clearIntPend s).roster = s.roster := rfl
@[simp] theorem clearIntPend_fb : (clearIntPend s).fb = s.fb := rfl
@[simp] theorem clearIntPend_fbEpoch : (clearIntPend s).fbEpoch = s.fbEpoch := rfl
@[simp] theorem clearIntPend_sink : (clearIntPend s).sink = s.sink := rfl
@[simp] theorem clearIntPend_chPixel : (clearIntPend s).chPixel = s.chPixel := rfl
@[simp] theorem clearIntPend_chFiller : (clearIntPend s).chFiller = s.chFiller := rfl
@[simp] theorem clearIntPend_chRow : (clearIntPend s).chRow = s.chRow := rfl
@[simp] theorem clearIntPend_chOedone : (clearIntPend s).chOedone = s.chOedone := rfl
@[simp] theorem clearIntPend_dtx : (clearIntPend s).dtx = s.dtx := rfl
@[simp] theorem clearIntPend_rtx : (clearIntPend s).rtx = s.rtx := rfl
@[simp] theorem clearIntPend_rrx : (clearIntPend s).rrx = s.rrx := rfl
@[simp] theorem clearIntPend_pj : (clearIntPend s).pj = s.pj := rfl
@[simp] theorem clearIntPend_phase : (clearIntPend s).phase = s.phase := rfl
@[simp] theorem clearIntPend_popped : (clearIntPend s).popped = s.popped := rfl
@[simp] theorem clearIntPend_ds : (clearIntPend s).ds = s.ds := rfl
@[simp] theorem clearIntPend_rs : (clearIntPend s).rs = s.rs := rfl
@[simp] theorem clearIntPend_mem : (clearIntPend s).mem = s.mem := rfl
@[simp] theorem clearIntPend_freeCh : (clearIntPend s).freeCh = s.freeCh := rfl
@[simp] theorem clearIntPend_freeSm : (clearIntPend s).freeSm = s.freeSm := rfl
@[simp] theorem clearIntPend_rdata : (clearIntPend s).rdata = s.rdata := rfl
@[simp] theorem clearIntPend_draws : (clearIntPend s).draws = s.draws := rfl
@[simp] theorem clearIntPend_input : (clearIntPend s).input = s.input := rfl

end

/-! ### BUSY -/

section
variable (s : State) (b : Bool)

@[simp] theorem setBusy_build : (setBusy b s).build = s.build := rfl
@[simp] theorem setBusy_status : (setBusy b s).status = { s.status with busy := b } := rfl
@[simp] theorem setBusy_cause : (setBusy b s).cause = s.cause := rfl
@[simp] theorem setBusy_geom : (setBusy b s).geom = s.geom := rfl
@[simp] theorem setBusy_srcAddr : (setBusy b s).srcAddr = s.srcAddr := rfl
@[simp] theorem setBusy_srcLen : (setBusy b s).srcLen = s.srcLen := rfl
@[simp] theorem setBusy_areaP1 : (setBusy b s).areaP1 = s.areaP1 := rfl
@[simp] theorem setBusy_areaP2 : (setBusy b s).areaP2 = s.areaP2 := rfl
@[simp] theorem setBusy_cfg : (setBusy b s).cfg = s.cfg := rfl
@[simp] theorem setBusy_scan : (setBusy b s).scan = s.scan := rfl
@[simp] theorem setBusy_desc : (setBusy b s).desc = s.desc := rfl
@[simp] theorem setBusy_shamt : (setBusy b s).shamt = s.shamt := rfl
@[simp] theorem setBusy_roster : (setBusy b s).roster = s.roster := rfl
@[simp] theorem setBusy_fb : (setBusy b s).fb = s.fb := rfl
@[simp] theorem setBusy_fbEpoch : (setBusy b s).fbEpoch = s.fbEpoch := rfl
@[simp] theorem setBusy_sink : (setBusy b s).sink = s.sink := rfl
@[simp] theorem setBusy_chPixel : (setBusy b s).chPixel = s.chPixel := rfl
@[simp] theorem setBusy_chFiller : (setBusy b s).chFiller = s.chFiller := rfl
@[simp] theorem setBusy_chRow : (setBusy b s).chRow = s.chRow := rfl
@[simp] theorem setBusy_chOedone : (setBusy b s).chOedone = s.chOedone := rfl
@[simp] theorem setBusy_dtx : (setBusy b s).dtx = s.dtx := rfl
@[simp] theorem setBusy_rtx : (setBusy b s).rtx = s.rtx := rfl
@[simp] theorem setBusy_rrx : (setBusy b s).rrx = s.rrx := rfl
@[simp] theorem setBusy_pj : (setBusy b s).pj = s.pj := rfl
@[simp] theorem setBusy_phase : (setBusy b s).phase = s.phase := rfl
@[simp] theorem setBusy_popped : (setBusy b s).popped = s.popped := rfl
@[simp] theorem setBusy_ds : (setBusy b s).ds = s.ds := rfl
@[simp] theorem setBusy_rs : (setBusy b s).rs = s.rs := rfl
@[simp] theorem setBusy_mem : (setBusy b s).mem = s.mem := rfl
@[simp] theorem setBusy_freeCh : (setBusy b s).freeCh = s.freeCh := rfl
@[simp] theorem setBusy_freeSm : (setBusy b s).freeSm = s.freeSm := rfl
@[simp] theorem setBusy_rdata : (setBusy b s).rdata = s.rdata := rfl
@[simp] theorem setBusy_draws : (setBusy b s).draws = s.draws := rfl
@[simp] theorem setBusy_input : (setBusy b s).input = s.input := rfl

end

/-! ### The shift patch -/

section
variable (s : State) (p : BitVec 4)

@[simp] theorem patchShift_build : (patchShift p s).build = s.build := rfl
@[simp] theorem patchShift_status : (patchShift p s).status = s.status := rfl
@[simp] theorem patchShift_cause : (patchShift p s).cause = s.cause := rfl
@[simp] theorem patchShift_geom : (patchShift p s).geom = s.geom := rfl
@[simp] theorem patchShift_srcAddr : (patchShift p s).srcAddr = s.srcAddr := rfl
@[simp] theorem patchShift_srcLen : (patchShift p s).srcLen = s.srcLen := rfl
@[simp] theorem patchShift_areaP1 : (patchShift p s).areaP1 = s.areaP1 := rfl
@[simp] theorem patchShift_areaP2 : (patchShift p s).areaP2 = s.areaP2 := rfl
@[simp] theorem patchShift_cfg : (patchShift p s).cfg = s.cfg := rfl
@[simp] theorem patchShift_scan : (patchShift p s).scan = s.scan := rfl
@[simp] theorem patchShift_desc : (patchShift p s).desc = s.desc := rfl
@[simp] theorem patchShift_shamt : (patchShift p s).shamt = p := rfl
@[simp] theorem patchShift_roster : (patchShift p s).roster = s.roster := rfl
@[simp] theorem patchShift_fb : (patchShift p s).fb = s.fb := rfl
@[simp] theorem patchShift_fbEpoch : (patchShift p s).fbEpoch = s.fbEpoch := rfl
@[simp] theorem patchShift_sink : (patchShift p s).sink = s.sink := rfl
@[simp] theorem patchShift_chPixel : (patchShift p s).chPixel = s.chPixel := rfl
@[simp] theorem patchShift_chFiller : (patchShift p s).chFiller = s.chFiller := rfl
@[simp] theorem patchShift_chRow : (patchShift p s).chRow = s.chRow := rfl
@[simp] theorem patchShift_chOedone : (patchShift p s).chOedone = s.chOedone := rfl
@[simp] theorem patchShift_dtx : (patchShift p s).dtx = s.dtx := rfl
@[simp] theorem patchShift_rtx : (patchShift p s).rtx = s.rtx := rfl
@[simp] theorem patchShift_rrx : (patchShift p s).rrx = s.rrx := rfl
@[simp] theorem patchShift_pj : (patchShift p s).pj = s.pj := rfl
@[simp] theorem patchShift_phase : (patchShift p s).phase = s.phase := rfl
@[simp] theorem patchShift_popped : (patchShift p s).popped = s.popped := rfl
@[simp] theorem patchShift_ds : (patchShift p s).ds = s.ds := rfl
@[simp] theorem patchShift_rs : (patchShift p s).rs = s.rs := rfl
@[simp] theorem patchShift_mem : (patchShift p s).mem = s.mem := rfl
@[simp] theorem patchShift_freeCh : (patchShift p s).freeCh = s.freeCh := rfl
@[simp] theorem patchShift_freeSm : (patchShift p s).freeSm = s.freeSm := rfl
@[simp] theorem patchShift_rdata : (patchShift p s).rdata = s.rdata := rfl
@[simp] theorem patchShift_draws : (patchShift p s).draws = s.draws := rfl
@[simp] theorem patchShift_input : (patchShift p s).input = s.input := rfl

end

/-! ### A frame-buffer write -/

section
variable (s : State) (i : Nat) (v : Word)

@[simp] theorem fbWrite_build : (fbWrite i v s).build = s.build := rfl
@[simp] theorem fbWrite_status : (fbWrite i v s).status = s.status := rfl
@[simp] theorem fbWrite_cause : (fbWrite i v s).cause = s.cause := rfl
@[simp] theorem fbWrite_geom : (fbWrite i v s).geom = s.geom := rfl
@[simp] theorem fbWrite_srcAddr : (fbWrite i v s).srcAddr = s.srcAddr := rfl
@[simp] theorem fbWrite_srcLen : (fbWrite i v s).srcLen = s.srcLen := rfl
@[simp] theorem fbWrite_areaP1 : (fbWrite i v s).areaP1 = s.areaP1 := rfl
@[simp] theorem fbWrite_areaP2 : (fbWrite i v s).areaP2 = s.areaP2 := rfl
@[simp] theorem fbWrite_cfg : (fbWrite i v s).cfg = s.cfg := rfl
@[simp] theorem fbWrite_scan : (fbWrite i v s).scan = s.scan := rfl
@[simp] theorem fbWrite_desc : (fbWrite i v s).desc = s.desc := rfl
@[simp] theorem fbWrite_shamt : (fbWrite i v s).shamt = s.shamt := rfl
@[simp] theorem fbWrite_roster : (fbWrite i v s).roster = s.roster := rfl
@[simp] theorem fbWrite_fb : (fbWrite i v s).fb = cellWrite i v s.fb := rfl
@[simp] theorem fbWrite_fbEpoch : (fbWrite i v s).fbEpoch = s.fbEpoch := rfl
@[simp] theorem fbWrite_sink : (fbWrite i v s).sink = s.sink := rfl
@[simp] theorem fbWrite_chPixel : (fbWrite i v s).chPixel = s.chPixel := rfl
@[simp] theorem fbWrite_chFiller : (fbWrite i v s).chFiller = s.chFiller := rfl
@[simp] theorem fbWrite_chRow : (fbWrite i v s).chRow = s.chRow := rfl
@[simp] theorem fbWrite_chOedone : (fbWrite i v s).chOedone = s.chOedone := rfl
@[simp] theorem fbWrite_dtx : (fbWrite i v s).dtx = s.dtx := rfl
@[simp] theorem fbWrite_rtx : (fbWrite i v s).rtx = s.rtx := rfl
@[simp] theorem fbWrite_rrx : (fbWrite i v s).rrx = s.rrx := rfl
@[simp] theorem fbWrite_pj : (fbWrite i v s).pj = s.pj := rfl
@[simp] theorem fbWrite_phase : (fbWrite i v s).phase = s.phase := rfl
@[simp] theorem fbWrite_popped : (fbWrite i v s).popped = s.popped := rfl
@[simp] theorem fbWrite_ds : (fbWrite i v s).ds = s.ds := rfl
@[simp] theorem fbWrite_rs : (fbWrite i v s).rs = s.rs := rfl
@[simp] theorem fbWrite_mem : (fbWrite i v s).mem = s.mem := rfl
@[simp] theorem fbWrite_freeCh : (fbWrite i v s).freeCh = s.freeCh := rfl
@[simp] theorem fbWrite_freeSm : (fbWrite i v s).freeSm = s.freeSm := rfl
@[simp] theorem fbWrite_rdata : (fbWrite i v s).rdata = s.rdata := rfl
@[simp] theorem fbWrite_draws : (fbWrite i v s).draws = s.draws := rfl
@[simp] theorem fbWrite_input : (fbWrite i v s).input = s.input := rfl

end

/-! ### A host store -/

section
variable (s : State) (a : BitVec 32) (v : Byte)

@[simp] theorem hostStore_build : (hostStore a v s).build = s.build := rfl
@[simp] theorem hostStore_status : (hostStore a v s).status = s.status := rfl
@[simp] theorem hostStore_cause : (hostStore a v s).cause = s.cause := rfl
@[simp] theorem hostStore_geom : (hostStore a v s).geom = s.geom := rfl
@[simp] theorem hostStore_srcAddr : (hostStore a v s).srcAddr = s.srcAddr := rfl
@[simp] theorem hostStore_srcLen : (hostStore a v s).srcLen = s.srcLen := rfl
@[simp] theorem hostStore_areaP1 : (hostStore a v s).areaP1 = s.areaP1 := rfl
@[simp] theorem hostStore_areaP2 : (hostStore a v s).areaP2 = s.areaP2 := rfl
@[simp] theorem hostStore_cfg : (hostStore a v s).cfg = s.cfg := rfl
@[simp] theorem hostStore_scan : (hostStore a v s).scan = s.scan := rfl
@[simp] theorem hostStore_desc : (hostStore a v s).desc = s.desc := rfl
@[simp] theorem hostStore_shamt : (hostStore a v s).shamt = s.shamt := rfl
@[simp] theorem hostStore_roster : (hostStore a v s).roster = s.roster := rfl
@[simp] theorem hostStore_fb : (hostStore a v s).fb = s.fb := rfl
@[simp] theorem hostStore_fbEpoch : (hostStore a v s).fbEpoch = s.fbEpoch := rfl
@[simp] theorem hostStore_sink : (hostStore a v s).sink = s.sink := rfl
@[simp] theorem hostStore_chPixel : (hostStore a v s).chPixel = s.chPixel := rfl
@[simp] theorem hostStore_chFiller : (hostStore a v s).chFiller = s.chFiller := rfl
@[simp] theorem hostStore_chRow : (hostStore a v s).chRow = s.chRow := rfl
@[simp] theorem hostStore_chOedone : (hostStore a v s).chOedone = s.chOedone := rfl
@[simp] theorem hostStore_dtx : (hostStore a v s).dtx = s.dtx := rfl
@[simp] theorem hostStore_rtx : (hostStore a v s).rtx = s.rtx := rfl
@[simp] theorem hostStore_rrx : (hostStore a v s).rrx = s.rrx := rfl
@[simp] theorem hostStore_pj : (hostStore a v s).pj = noteStores a.toNat v s := rfl
@[simp] theorem hostStore_phase : (hostStore a v s).phase = s.phase := rfl
@[simp] theorem hostStore_popped : (hostStore a v s).popped = s.popped := rfl
@[simp] theorem hostStore_ds : (hostStore a v s).ds = s.ds := rfl
@[simp] theorem hostStore_rs : (hostStore a v s).rs = s.rs := rfl
@[simp] theorem hostStore_mem : (hostStore a v s).mem = cellWrite a.toNat v s.mem := rfl
@[simp] theorem hostStore_freeCh : (hostStore a v s).freeCh = s.freeCh := rfl
@[simp] theorem hostStore_freeSm : (hostStore a v s).freeSm = s.freeSm := rfl
@[simp] theorem hostStore_rdata : (hostStore a v s).rdata = s.rdata := rfl
@[simp] theorem hostStore_draws : (hostStore a v s).draws = s.draws := rfl
@[simp] theorem hostStore_input : (hostStore a v s).input = s.input := rfl

end

/-! ### Replacing a channel's record -/

section
variable (s : State) (c d : ChanId) (ch : Channel)

@[simp] theorem setChan_build : (setChan c ch s).build = s.build := by cases c <;> rfl
@[simp] theorem setChan_status : (setChan c ch s).status = s.status := by cases c <;> rfl
@[simp] theorem setChan_cause : (setChan c ch s).cause = s.cause := by cases c <;> rfl
@[simp] theorem setChan_geom : (setChan c ch s).geom = s.geom := by cases c <;> rfl
@[simp] theorem setChan_srcAddr : (setChan c ch s).srcAddr = s.srcAddr := by cases c <;> rfl
@[simp] theorem setChan_srcLen : (setChan c ch s).srcLen = s.srcLen := by cases c <;> rfl
@[simp] theorem setChan_areaP1 : (setChan c ch s).areaP1 = s.areaP1 := by cases c <;> rfl
@[simp] theorem setChan_areaP2 : (setChan c ch s).areaP2 = s.areaP2 := by cases c <;> rfl
@[simp] theorem setChan_cfg : (setChan c ch s).cfg = s.cfg := by cases c <;> rfl
@[simp] theorem setChan_scan : (setChan c ch s).scan = s.scan := by cases c <;> rfl
@[simp] theorem setChan_desc : (setChan c ch s).desc = s.desc := by cases c <;> rfl
@[simp] theorem setChan_shamt : (setChan c ch s).shamt = s.shamt := by cases c <;> rfl
@[simp] theorem setChan_roster : (setChan c ch s).roster = s.roster := by cases c <;> rfl
@[simp] theorem setChan_fb : (setChan c ch s).fb = s.fb := by cases c <;> rfl
@[simp] theorem setChan_fbEpoch : (setChan c ch s).fbEpoch = s.fbEpoch := by cases c <;> rfl
@[simp] theorem setChan_sink : (setChan c ch s).sink = s.sink := by cases c <;> rfl
@[simp] theorem setChan_dtx : (setChan c ch s).dtx = s.dtx := by cases c <;> rfl
@[simp] theorem setChan_rtx : (setChan c ch s).rtx = s.rtx := by cases c <;> rfl
@[simp] theorem setChan_rrx : (setChan c ch s).rrx = s.rrx := by cases c <;> rfl
@[simp] theorem setChan_pj : (setChan c ch s).pj = s.pj := by cases c <;> rfl
@[simp] theorem setChan_phase : (setChan c ch s).phase = s.phase := by cases c <;> rfl
@[simp] theorem setChan_popped : (setChan c ch s).popped = s.popped := by cases c <;> rfl
@[simp] theorem setChan_ds : (setChan c ch s).ds = s.ds := by cases c <;> rfl
@[simp] theorem setChan_rs : (setChan c ch s).rs = s.rs := by cases c <;> rfl
@[simp] theorem setChan_mem : (setChan c ch s).mem = s.mem := by cases c <;> rfl
@[simp] theorem setChan_freeCh : (setChan c ch s).freeCh = s.freeCh := by cases c <;> rfl
@[simp] theorem setChan_freeSm : (setChan c ch s).freeSm = s.freeSm := by cases c <;> rfl
@[simp] theorem setChan_rdata : (setChan c ch s).rdata = s.rdata := by cases c <;> rfl
@[simp] theorem setChan_draws : (setChan c ch s).draws = s.draws := by cases c <;> rfl
@[simp] theorem setChan_input : (setChan c ch s).input = s.input := by cases c <;> rfl

@[simp] theorem chan_setChan_same : chan c (setChan c ch s) = ch := by cases c <;> rfl

theorem chan_setChan_ne (h : d ≠ c) : chan d (setChan c ch s) = chan d s := by
  cases c <;> cases d <;> first | rfl | exact absurd rfl h

@[simp] theorem setChan_setChan_same (ch' : Channel) : setChan c ch' (setChan c ch s) = setChan c ch' s := by
  cases c <;> rfl

@[simp] theorem setChan_pixel_chPixel : (setChan .pixel ch s).chPixel = ch := rfl
@[simp] theorem setChan_pixel_chFiller : (setChan .pixel ch s).chFiller = s.chFiller := rfl
@[simp] theorem setChan_pixel_chRow : (setChan .pixel ch s).chRow = s.chRow := rfl
@[simp] theorem setChan_pixel_chOedone : (setChan .pixel ch s).chOedone = s.chOedone := rfl
@[simp] theorem setChan_filler_chPixel : (setChan .filler ch s).chPixel = s.chPixel := rfl
@[simp] theorem setChan_filler_chFiller : (setChan .filler ch s).chFiller = ch := rfl
@[simp] theorem setChan_filler_chRow : (setChan .filler ch s).chRow = s.chRow := rfl
@[simp] theorem setChan_filler_chOedone : (setChan .filler ch s).chOedone = s.chOedone := rfl
@[simp] theorem setChan_row_chPixel : (setChan .row ch s).chPixel = s.chPixel := rfl
@[simp] theorem setChan_row_chFiller : (setChan .row ch s).chFiller = s.chFiller := rfl
@[simp] theorem setChan_row_chRow : (setChan .row ch s).chRow = ch := rfl
@[simp] theorem setChan_row_chOedone : (setChan .row ch s).chOedone = s.chOedone := rfl
@[simp] theorem setChan_oedone_chPixel : (setChan .oedone ch s).chPixel = s.chPixel := rfl
@[simp] theorem setChan_oedone_chFiller : (setChan .oedone ch s).chFiller = s.chFiller := rfl
@[simp] theorem setChan_oedone_chRow : (setChan .oedone ch s).chRow = s.chRow := rfl
@[simp] theorem setChan_oedone_chOedone : (setChan .oedone ch s).chOedone = ch := rfl
@[simp] theorem chan_pixel : chan .pixel s = s.chPixel := rfl
@[simp] theorem chan_filler : chan .filler s = s.chFiller := rfl
@[simp] theorem chan_row : chan .row s = s.chRow := rfl
@[simp] theorem chan_oedone : chan .oedone s = s.chOedone := rfl

end

end Sys2Proof.Machine
end

