-- ==== Sys2Proof/Laws/Safety.lean ====
section
/-! SUPPORT. Which fields each part of the invariant reads: each part passes to any state that agrees on them, so a
proof about a step only has to look at what the step changed. -/

namespace Sys2Proof.Machine

variable {s t : State}

theorem RosterOk.congr (h : RosterOk s) (hr : t.roster = s.roster) (hb : t.build = s.build) : RosterOk t := by
  refine ⟨?_, ?_, ?_, ?_⟩
  · rw [hr]; exact h.channels
  · rw [hr]; exact h.slots
  · rw [hr, hb]; exact h.channelPool
  · rw [hr, hb]; exact h.slotPool

theorem Configured.congr (h : Configured s) (hc : t.cfg = s.cfg) (hb : t.build = s.build)
    (h1 : t.chPixel = s.chPixel) (h2 : t.chFiller = s.chFiller) (h3 : t.chRow = s.chRow)
    (h4 : t.chOedone = s.chOedone) : Configured t := by
  have hw : t.width = s.width := by simp [State.width, hc]
  refine ⟨?_, ?_, ?_, ?_⟩
  · rw [h1, hw, hb]; exact h.pixel
  · rw [h2, hw, hb]; exact h.filler
  · rw [h3, hw, hb]; exact h.row
  · rw [h4, hw, hb]; exact h.oedone

theorem Quiet.congr (h : Quiet s) (h1 : t.chPixel.active = s.chPixel.active)
    (h2 : t.chFiller.active = s.chFiller.active) (h3 : t.chRow.active = s.chRow.active)
    (h4 : t.chOedone.active = s.chOedone.active) (hp : t.status.intPend = s.status.intPend) (hd : t.dtx = s.dtx)
    (hr : t.rtx = s.rtx) (hx : t.rrx = s.rrx) (hf : t.phase = s.phase) (hs : t.scan = s.scan) : Quiet t :=
  ⟨h1.trans h.pixel, h2.trans h.filler, h3.trans h.row, h4.trans h.oedone, hp.trans h.pending, hd.trans h.dtx,
    hr.trans h.rtx, hx.trans h.rrx, hf.trans h.phase, hs.trans h.scan⟩

theorem At.congr {p : ScanPosition} (h : At p s) (h1 : t.chPixel.active = s.chPixel.active)
    (h2 : t.chFiller.active = s.chFiller.active) (h3 : t.chRow.active = s.chRow.active)
    (h4 : t.chOedone.active = s.chOedone.active) (hp : t.status.intPend = s.status.intPend)
    (hr : t.rtx = s.rtx) (hx : t.rrx = s.rrx) (hf : t.phase = s.phase) : At p t :=
  ⟨h1.trans h.pixel, h2.trans h.filler, h3.trans h.row, h4.trans h.oedone, hp.trans h.pending,
    (congrArg List.length hr).trans h.rtx, (congrArg List.length hx).trans h.rrx,
    (congrArg RowPhase.isBusy hf).trans h.phase⟩

theorem Flushed.congr (h : Flushed s) (hd : t.dtx = s.dtx) (hb : t.build = s.build)
    (hf : t.chFiller.remain = s.chFiller.remain) : Flushed t := by
  unfold Flushed
  rw [hd, hb, hf]
  exact h

theorem PixelRead.congr (h : PixelRead s) (hc : t.cfg = s.cfg) (hs : t.scan = s.scan)
    (h1 : t.chPixel = s.chPixel) : PixelRead t := by
  have hw : t.width = s.width := by simp [State.width, hc]
  unfold PixelRead
  rw [h1, hw, hs]
  exact h

/-- The scan path's part of the invariant, which only the scan's own operations change. -/
def ScanPath (s : State) : Prop :=
  if s.status.running then ∃ p, At p s ∧ (p ≠ .pixelRun → Flushed s) else Quiet s

theorem ScanPath.congr (h : ScanPath s) (hg : t.status.running = s.status.running) (hb : t.build = s.build)
    (h1 : t.chPixel = s.chPixel) (h2 : t.chFiller = s.chFiller) (h3 : t.chRow = s.chRow)
    (h4 : t.chOedone = s.chOedone) (hp : t.status.intPend = s.status.intPend) (hd : t.dtx = s.dtx)
    (hr : t.rtx = s.rtx) (hx : t.rrx = s.rrx) (hf : t.phase = s.phase) (hs : t.scan = s.scan) : ScanPath t := by
  unfold ScanPath at *
  rw [hg]
  split
  · rename_i hrun
    rw [if_pos hrun] at h
    obtain ⟨p, ha, hfl⟩ := h
    exact ⟨p, ha.congr (by rw [h1]) (by rw [h2]) (by rw [h3]) (by rw [h4]) hp hr hx hf,
      fun hne => (hfl hne).congr hd hb (by rw [h2])⟩
  · rename_i hrun
    rw [if_neg hrun] at h
    exact h.congr (by rw [h1]) (by rw [h2]) (by rw [h3]) (by rw [h4]) hp hd hr hx hf hs

/-- The invariant passes over every step that leaves the scan path, the pools and the configuration alone. -/
theorem Inv.frame (h : Inv s) (hb : t.build = s.build) (hcfg : t.cfg = s.cfg)
    (hmem : Memory.wf t.mem = true) (hfb : FrameBuffer.wf s.fbWords t.fb = true)
    (hbusy : t.status.busy = !t.pj.isEmpty) (hcause : t.cause = .noFault ↔ t.status.fault = false)
    (hjobs : ∀ e ∈ t.pj, e.fbIndex < s.fbWords)
    (hst : t.status = { s.status with busy := t.status.busy, fault := t.status.fault })
    (hsc : t.scan = s.scan) (hde : t.desc = s.desc) (hsh : t.shamt.toNat < Config.bitDepth)
    (hro : t.roster = s.roster) (hfc : t.freeCh = s.freeCh) (hfs : t.freeSm = s.freeSm)
    (h1 : t.chPixel = s.chPixel) (h2 : t.chFiller = s.chFiller) (h3 : t.chRow = s.chRow)
    (h4 : t.chOedone = s.chOedone) (hd : t.dtx = s.dtx) (hr : t.rtx = s.rtx) (hx : t.rrx = s.rrx)
    (hp : t.phase = s.phase) : Inv t := by
  have hw : t.width = s.width := by simp [State.width, hcfg]
  have hh : t.height = s.height := by simp [State.height, hcfg]
  have hhalf : t.half = s.half := by simp [State.half, hh]
  have hwords : t.fbWords = s.fbWords := by simp [State.fbWords, hw, hh]
  have hcr : t.status.created = s.status.created := by rw [hst]
  have hru : t.status.running = s.status.running := by rw [hst]
  have hha : t.status.halted = s.status.halted := by rw [hst]
  have hie : t.status.intEn = s.status.intEn := by rw [hst]
  have hip : t.status.intPend = s.status.intPend := by rw [hst]
  exact {
    build := hb ▸ h.build
    mem := hmem
    fb := hwords ▸ hfb
    busy := hbusy
    cause := hcause
    jobs := hwords ▸ hjobs
    running := by rw [hru, hcr]; exact h.running
    notHalted := by rw [hcr, hha]; exact h.notHalted
    intEn := by rw [hie, hcr]; exact h.intEn
    valid := by rw [hro, hcr]; exact h.valid
    geometry := by rw [hcr, hb, hw, hh, hcfg]; exact h.geometry
    row := by rw [hcr, hsc, hhalf]; exact h.row
    plane := by rw [hsc]; exact h.plane
    desc := by rw [hde, hsc]; exact h.desc
    shamt := hsh
    freeCh := by rw [hfc, hb]; exact h.freeCh
    freeSm := by rw [hfs, hb]; exact h.freeSm
    roster := fun hc => (h.roster (hcr ▸ hc)).congr hro hb
    configured := fun hc => (h.configured (hcr ▸ hc)).congr hcfg hb h1 h2 h3 h4
    runs := by rw [h1, h2, h3, h4]; exact h.runs
    pixelRead := h.pixelRead.congr hcfg hsc h1
    depth := by rw [hd, hb]; exact h.depth
    path := ScanPath.congr h.path hru hb h1 h2 h3 h4 hip hd hr hx hp hsc }

end Sys2Proof.Machine
end

