-- ==== Sys2Proof/Laws/Invariant.lean ====
section
/-! SUPPORT. What the invariant gives: the latched geometry, the bound of every job's words, and the position of the scan
path as its channels, queues and phase show it. -/

namespace Sys2Proof.Machine

variable {s : State}

/-- Recording a fault keeps the invariant. -/
theorem Inv.raise (h : Inv s) {c : Cause} (hc : c ≠ .noFault) : Inv (raiseFault c s) := by
  refine h.frame rfl rfl h.mem h.fb h.busy ?_ h.jobs rfl rfl rfl h.shamt rfl rfl rfl rfl rfl rfl rfl rfl rfl rfl rfl
  have := h.cause
  cases hf : s.status.fault <;> simp_all

/-- Moving the input list on keeps the invariant. -/
theorem Inv.withInput (h : Inv s) (rest : List Input) : Inv { s with input := rest } :=
  h.frame rfl rfl h.mem h.fb h.busy h.cause h.jobs rfl rfl rfl h.shamt rfl rfl rfl rfl rfl rfl rfl rfl rfl rfl rfl

/-- A created block's geometry (spec/44_driver_control.md R117). -/
theorem Inv.geometry_bounds (h : Inv s) (hc : s.status.created = true) :
    1 ≤ s.width ∧ 2 ≤ s.height ∧ s.height % 2 = 0 ∧ s.height ≤ 64 := by
  have hg := h.geometry
  rw [if_pos hc] at hg
  simp only [legalGeometry, Bool.and_eq_true, decide_eq_true_eq] at hg
  omega

/-- The words in use, by row addresses. -/
theorem Inv.fbWords_eq (h : Inv s) (hc : s.status.created = true) : s.fbWords = s.width * (2 * s.half) := by
  have hg := h.geometry_bounds hc
  simp only [State.fbWords, State.half]
  congr 1
  omega

/-- Before CREATE nothing is pending and no frame-buffer word exists. -/
theorem Inv.pj_of_not_created (h : Inv s) (hc : s.status.created = false) : s.pj = [] := by
  have hg := h.geometry
  rw [if_neg (by simp [hc])] at hg
  have hw : s.fbWords = 0 := by simp [State.fbWords, State.width, hg]
  cases hp : s.pj with
  | nil => rfl
  | cons e rest => exact absurd (h.jobs e (by simp [hp])) (by omega)

/-- A running block's scan path stands somewhere; the filler words it has pushed are its last words after CH_PIXEL's
run. -/
theorem Inv.position (h : Inv s) (hr : s.status.running = true) : ∃ p, At p s ∧ (p ≠ .pixelRun → Flushed s) := by
  have hp := h.path
  rwa [if_pos hr] at hp

/-- A block that does not run is quiet. -/
theorem Inv.quiet (h : Inv s) (hr : s.status.running = false) : Quiet s := by
  have hp := h.path
  rwa [if_neg (by simp [hr])] at hp

/-- CH_PIXEL is active at one position only. -/
theorem Inv.at_of_pixel (h : Inv s) (ha : s.chPixel.active = true) : s.status.running = true ∧ At .pixelRun s := by
  cases hr : s.status.running
  · exact absurd ((h.quiet hr).pixel.symm.trans ha) (by simp)
  · obtain ⟨p, hp, _⟩ := h.position hr
    have hq := hp.pixel.symm.trans ha
    rw [decide_eq_true_eq] at hq
    subst hq
    exact ⟨rfl, hp⟩

/-- CH_FILLER is active at one position only. -/
theorem Inv.at_of_filler (h : Inv s) (ha : s.chFiller.active = true) :
    s.status.running = true ∧ At .fillerRun s ∧ Flushed s := by
  cases hr : s.status.running
  · exact absurd ((h.quiet hr).filler.symm.trans ha) (by simp)
  · obtain ⟨p, hp, hf⟩ := h.position hr
    have hq := hp.filler.symm.trans ha
    rw [decide_eq_true_eq] at hq
    subst hq
    exact ⟨rfl, hp, hf (by simp)⟩

/-- CH_ROW is active at one position only. -/
theorem Inv.at_of_row (h : Inv s) (ha : s.chRow.active = true) :
    s.status.running = true ∧ At .rowSend s ∧ Flushed s := by
  cases hr : s.status.running
  · exact absurd ((h.quiet hr).row.symm.trans ha) (by simp)
  · obtain ⟨p, hp, hf⟩ := h.position hr
    have hq := hp.row.symm.trans ha
    rw [decide_eq_true_eq] at hq
    subst hq
    exact ⟨rfl, hp, hf (by simp)⟩

/-- A queued descriptor shows the position. -/
theorem Inv.at_of_rtx (h : Inv s) (hq : s.rtx ≠ []) : s.status.running = true ∧ At .rowQueued s ∧ Flushed s := by
  cases hr : s.status.running
  · exact absurd (h.quiet hr).rtx hq
  · obtain ⟨p, hp, hf⟩ := h.position hr
    have hl := hp.rtx
    split at hl
    · rename_i e
      subst e
      exact ⟨rfl, hp, hf (by simp)⟩
    · exact absurd (List.length_eq_zero_iff.1 hl) hq

/-- A queued token shows the position. -/
theorem Inv.at_of_rrx (h : Inv s) (hq : s.rrx ≠ []) : s.status.running = true ∧ At .tokenQueued s ∧ Flushed s := by
  cases hr : s.status.running
  · exact absurd (h.quiet hr).rrx hq
  · obtain ⟨p, hp, hf⟩ := h.position hr
    have hl := hp.rrx
    split at hl
    · rename_i e
      subst e
      exact ⟨rfl, hp, hf (by simp)⟩
    · exact absurd (List.length_eq_zero_iff.1 hl) hq

/-- A busy row serializer shows the position. -/
theorem Inv.at_of_busy (h : Inv s) (hb : s.phase ≠ .idle) : s.status.running = true ∧ At .rowShown s ∧ Flushed s := by
  cases hr : s.status.running
  · exact absurd (h.quiet hr).phase hb
  · obtain ⟨p, hp, hf⟩ := h.position hr
    have hbusy : s.phase.isBusy = true := by cases hx : s.phase <;> simp_all [RowPhase.isBusy]
    have hq := hp.phase.symm.trans hbusy
    rw [decide_eq_true_eq] at hq
    subst hq
    exact ⟨rfl, hp, hf (by simp)⟩

/-- A pending event shows the position. -/
theorem Inv.at_of_pending (h : Inv s) (hi : s.status.intPend = true) :
    s.status.running = true ∧ At .eventPending s ∧ Flushed s := by
  cases hr : s.status.running
  · exact absurd ((h.quiet hr).pending.symm.trans hi) (by simp)
  · obtain ⟨p, hp, hf⟩ := h.position hr
    have hq := hp.pending.symm.trans hi
    rw [decide_eq_true_eq] at hq
    subst hq
    exact ⟨rfl, hp, hf (by simp)⟩

end Sys2Proof.Machine
end

