-- ==== Sys2Proof/Laws/Memory.lean ====
section
/-! SUPPORT. The laws of the two addressed stores: read after write, and that every write keeps the canonical form. -/

namespace Sys2Proof.Machine

variable {α : Type}

@[simp] theorem cellRead_cellWrite_same (key : Nat) (v : α) (m : List (Nat × α)) :
    cellRead key (cellWrite key v m) = some v := by
  induction m with
  | nil => simp [cellWrite, cellRead]
  | cons c rest ih =>
    obtain ⟨k, w⟩ := c
    simp only [cellWrite]
    split
    · simp [cellRead]
    · split
      · simp [cellRead]
      · rename_i h
        simp [cellRead, h, ih]

theorem cellRead_cellWrite_ne {key key' : Nat} (h : key' ≠ key) (v : α) (m : List (Nat × α)) :
    cellRead key' (cellWrite key v m) = cellRead key' m := by
  induction m with
  | nil => simp [cellWrite, cellRead, h]
  | cons c rest ih =>
    obtain ⟨k, w⟩ := c
    simp only [cellWrite]
    split
    · simp [cellRead, h]
    · split
      · rename_i hk
        subst hk
        simp [cellRead, h]
      · simp [cellRead, ih]

theorem mem_cellWrite {key : Nat} {v : α} {m : List (Nat × α)} {c : Nat × α} (h : c ∈ cellWrite key v m) :
    c = (key, v) ∨ c ∈ m := by
  induction m with
  | nil => simpa [cellWrite] using h
  | cons d rest ih =>
    simp only [cellWrite] at h
    split at h
    · simpa using h
    · split at h
      · simp only [List.mem_cons] at h ⊢
        tauto
      · simp only [List.mem_cons] at h ⊢
        rcases h with h | h
        · exact .inr (.inl h)
        · rcases ih h with h | h
          · exact .inl h
          · exact .inr (.inr h)

/-- A write below the bound keeps the canonical form. -/
theorem cellsWf_cellWrite {bound key : Nat} (hk : key < bound) (v : α) {m : List (Nat × α)}
    (h : cellsWf bound m = true) : cellsWf bound (cellWrite key v m) = true := by
  induction m with
  | nil => simpa [cellWrite, cellsWf] using hk
  | cons c rest ih =>
    obtain ⟨k, w⟩ := c
    simp only [cellsWf, Bool.and_eq_true, decide_eq_true_eq, List.all_eq_true] at h
    obtain ⟨⟨h1, h2⟩, h3⟩ := h
    simp only [cellWrite]
    split
    · rename_i hlt
      simp only [cellsWf, Bool.and_eq_true, decide_eq_true_eq, List.all_eq_true, List.mem_cons]
      refine ⟨⟨hk, ?_⟩, ⟨h1, h2⟩, h3⟩
      rintro d (rfl | hd)
      · exact hlt
      · exact Nat.lt_trans hlt (h2 d hd)
    · split
      · rename_i heq
        subst heq
        simp only [cellsWf, Bool.and_eq_true, decide_eq_true_eq, List.all_eq_true]
        exact ⟨⟨h1, h2⟩, h3⟩
      · rename_i hlt hne
        simp only [cellsWf, Bool.and_eq_true, decide_eq_true_eq, List.all_eq_true]
        refine ⟨⟨h1, ?_⟩, ih h3⟩
        intro d hd
        rcases mem_cellWrite hd with rfl | hd
        · show k < key
          omega
        · exact h2 d hd

/-- Keys of a list in canonical form are below its bound. -/
theorem cellsWf_mono {bound bound' : Nat} (hb : bound ≤ bound') {m : List (Nat × α)}
    (h : cellsWf bound m = true) : cellsWf bound' m = true := by
  induction m with
  | nil => rfl
  | cons c rest ih =>
    simp only [cellsWf, Bool.and_eq_true, decide_eq_true_eq] at h ⊢
    exact ⟨⟨Nat.lt_of_lt_of_le h.1.1 hb, h.1.2⟩, ih h.2⟩

/-- A frame-buffer word depends on FB alone. -/
theorem fbRead_congr {i : Nat} {s t : State} (h : t.fb = s.fb) (he : t.fbEpoch = s.fbEpoch) :
    fbRead i t = fbRead i s := by
  simp [fbRead, h, he]

/-- A source byte depends on host memory alone. -/
theorem memRead_congr {a : Nat} {s t : State} (h : t.mem = s.mem) : memRead a t = memRead a s := by
  simp [memRead, h]

@[simp] theorem fbRead_fbWrite_same (i : Nat) (v : Word) (s : State) : fbRead i (fbWrite i v s) = v := by
  simp [fbRead]

theorem fbRead_fbWrite_ne {i j : Nat} (h : j ≠ i) (v : Word) (s : State) :
    fbRead j (fbWrite i v s) = fbRead j s := by
  simp [fbRead, cellRead_cellWrite_ne h]

@[simp] theorem memRead_hostStore_same (a : BitVec 32) (v : Byte) (s : State) :
    memRead a.toNat (hostStore a v s) = v := by
  simp [memRead]

theorem memRead_hostStore_ne {a : BitVec 32} {a' : Nat} (h : a' ≠ a.toNat) (v : Byte) (s : State) :
    memRead a' (hostStore a v s) = memRead a' s := by
  simp [memRead, cellRead_cellWrite_ne h]

/-- The host's store keeps source memory in canonical form. -/
theorem hostStore_memory_wf {a : BitVec 32} {v : Byte} {s : State} (h : Memory.wf s.mem = true) :
    Memory.wf (hostStore a v s).mem = true :=
  cellsWf_cellWrite a.isLt v h

/-- The packer's write keeps the frame buffer in canonical form. -/
theorem fbWrite_wf {i words : Nat} (hi : i < words) {v : Word} {s : State}
    (h : FrameBuffer.wf words s.fb = true) : FrameBuffer.wf words (fbWrite i v s).fb = true :=
  cellsWf_cellWrite hi v h

/-- Source memory is in canonical form right after reset. -/
theorem reset_memory_wf : Memory.wf State.reset.mem = true := rfl

end Sys2Proof.Machine
end

