-- ==== Sys2Proof/Laws/Ops.lean ====
section
/-! SUPPORT. What each shared operation can do, said once: the channel primitives, the single transfer, the re-arm, the
sequencer's body, the packer's step and the acceptance of a command. -/

namespace Sys2Proof.Machine

open Host

/-! ### Triggers -/

theorem trigger_of_idle {c : ChanId} {s : State} (h : (chan c s).active = false) :
    trigger c s = .ok (setChan c { chan c s with active := true, remain := (chan c s).count } s) := by
  simp [trigger, h]

theorem trigger_of_active {c : ChanId} {s : State} (h : (chan c s).active = true) :
    trigger c s = .error .internal := by
  simp [trigger, h]

/-- A trigger that succeeds found its channel idle. -/
theorem trigger_ok {c : ChanId} {s t : State} (h : trigger c s = .ok t) : (chan c s).active = false ∧
    t = setChan c { chan c s with active := true, remain := (chan c s).count } s := by
  unfold trigger at h
  split at h
  · cases h
  · rename_i ha
    exact ⟨by simpa using ha, (Except.ok.inj h).symm⟩

/-- The re-arm of START and SEQ_STEP on idle channels. -/
theorem rearm_of_idle {first : Nat} {s : State} (ho : s.chOedone.active = false) (hp : s.chPixel.active = false) :
    rearm first s = .ok { s with
      chRow := { s.chRow with read := .desc }
      chOedone := { s.chOedone with write := .sink, active := true, remain := s.chOedone.count }
      chPixel := { s.chPixel with read := .fb first, active := true, remain := s.chPixel.count } } := by
  simp [rearm, setRead, setWrite, trigger, setChan, ho, hp]

/-- The re-arm where a channel it triggers is active. -/
theorem rearm_of_active {first : Nat} {s : State} (h : s.chOedone.active = true ∨ s.chPixel.active = true) :
    rearm first s = .error .internal := by
  cases ho : s.chOedone.active
  · have hp : s.chPixel.active = true := by simpa [ho] using h
    simp [rearm, setRead, setWrite, trigger, setChan, ho, hp]
  · simp [rearm, setRead, setWrite, trigger, setChan, ho]

/-- A re-arm fails only with INTERNAL. -/
theorem rearm_error {first : Nat} {s : State} {c : Cause} (h : rearm first s = .error c) : c = .internal := by
  by_cases ha : s.chOedone.active = true ∨ s.chPixel.active = true
  · rw [rearm_of_active ha] at h
    exact (Except.error.inj h).symm
  · simp only [not_or, Bool.not_eq_true] at ha
    rw [rearm_of_idle ha.1 ha.2] at h
    cases h

/-- What a re-arm that succeeds leaves. -/
theorem rearm_ok {first : Nat} {s t : State} (h : rearm first s = .ok t) :
    s.chOedone.active = false ∧ s.chPixel.active = false ∧ t = { s with
      chRow := { s.chRow with read := .desc }
      chOedone := { s.chOedone with write := .sink, active := true, remain := s.chOedone.count }
      chPixel := { s.chPixel with read := .fb first, active := true, remain := s.chPixel.count } } := by
  by_cases ha : s.chOedone.active = true ∨ s.chPixel.active = true
  · rw [rearm_of_active ha] at h
    cases h
  · simp only [not_or, Bool.not_eq_true] at ha
    rw [rearm_of_idle ha.1 ha.2] at h
    exact ⟨ha.1, ha.2, (Except.ok.inj h).symm⟩

/-! ### Transfers -/

/-- What a word taken from a location can change: RRX only. -/
theorem takeSource_ok {l : Loc} {s s1 : State} {v : Word} (h : takeSource l s = .ok (v, s1)) :
    s1 = { s with rrx := s1.rrx } := by
  cases l <;> simp only [takeSource] at h
  case fb i =>
    split at h
    · cases h; rfl
    · cases h
  case zero => cases h; rfl
  case desc => cases h; rfl
  case rrx =>
    split at h
    · cases h
    · cases h; rfl
  all_goals cases h

/-- What a word put at a location can change: DTX, RTX and SINK only. -/
theorem putWord_ok {l : Loc} {s s2 : State} {v : Word} (h : putWord l v s = .ok s2) :
    s2 = { s with dtx := s2.dtx, rtx := s2.rtx, sink := s2.sink } := by
  cases l <;> simp only [putWord] at h <;> cases h <;> rfl

/-- What replacing a record changes, as one record update. -/
theorem setChan_eq (c : ChanId) (ch : Channel) (s : State) : setChan c ch s =
    { s with chPixel := (setChan c ch s).chPixel, chFiller := (setChan c ch s).chFiller,
             chRow := (setChan c ch s).chRow, chOedone := (setChan c ch s).chOedone } := by
  cases c <;> rfl

/-- What the end of a run changes: a channel's record and INT_PEND, which it can only set. -/
theorem endRun_eq (c : ChanId) (ch : Channel) (s : State) : endRun c ch s =
    { s with chPixel := (endRun c ch s).chPixel, chFiller := (endRun c ch s).chFiller,
             chRow := (endRun c ch s).chRow, chOedone := (endRun c ch s).chOedone,
             status := { s.status with intPend := s.status.intPend || ch.irq } } := by
  unfold endRun
  split
  · rename_i h
    rw [setChan_eq]
    simp [setIntPend, h]
  · rename_i h
    rw [setChan_eq]
    simp [h]

/-- What the second half of a transfer can change: the channel records and INT_PEND, which it can only set. -/
theorem advanceChannel_ok {c : ChanId} {s t : State} (h : advanceChannel c s = .ok t) :
    t = { s with chPixel := t.chPixel, chFiller := t.chFiller, chRow := t.chRow, chOedone := t.chOedone,
                 status := { s.status with intPend := t.status.intPend } } ∧
    (s.status.intPend = true → t.status.intPend = true) := by
  unfold advanceChannel at h
  split at h
  · have hs := endRun_eq c (movedOne (chan c s)) s
    generalize endRun c (movedOne (chan c s)) s = u at h hs
    cases hch : (chan c s).chain with
    | none =>
      rw [hch] at h
      obtain rfl : u = t := Except.ok.inj h
      exact ⟨by rw [hs], fun hp => by rw [hs]; simp [hp]⟩
    | some d =>
      rw [hch] at h
      obtain ⟨_, rfl⟩ := trigger_ok h
      rw [setChan_eq]
      exact ⟨by rw [hs], fun hp => by rw [hs]; simp [hp]⟩
  · cases h
    exact ⟨by rw [setChan_eq], fun hp => by simpa using hp⟩

/-- The second half of a transfer fails only with INTERNAL. -/
theorem advanceChannel_error {c : ChanId} {s : State} {k : Cause} (h : advanceChannel c s = .error k) :
    k = .internal := by
  unfold advanceChannel at h
  split at h
  · generalize endRun c (movedOne (chan c s)) s = u at h
    cases hch : (chan c s).chain with
    | none => rw [hch] at h; cases h
    | some d =>
      rw [hch] at h
      simp only [followChain, trigger] at h
      split at h <;> cases h
      rfl
  · cases h

/-- Everything a transfer that goes on can do: pass, move a word, or record INTERNAL. -/
theorem transfer_next {c : ChanId} {s t : State} (h : transfer c s = .next t) :
    (transferEnabled c s = false ∧ t = s) ∨
    (transferEnabled c s = true ∧ ∃ v s1 s2, takeSource (chan c s).read s = .ok (v, s1) ∧
      putWord (chan c s).write v s1 = .ok s2 ∧
      (advanceChannel c s2 = .ok t ∨ (advanceChannel c s2 = .error .internal ∧ t = raiseFault .internal s))) := by
  unfold transfer at h
  split at h
  · rename_i he
    refine .inr ⟨he, ?_⟩
    split at h
    · cases h
    · rename_i v s1 hs
      split at h
      · cases h
      · rename_i s2 hp
        refine ⟨v, s1, s2, hs, hp, ?_⟩
        cases ha : advanceChannel c s2 with
        | ok u =>
          rw [ha] at h
          cases h
          exact .inl rfl
        | error k =>
          rw [ha, advanceChannel_error ha] at h
          cases h
          exact .inr ⟨by rw [advanceChannel_error ha], rfl⟩
  · rename_i he
    cases h
    exact .inl ⟨by simpa using he, rfl⟩

/-- The frame of a transfer: only the queues, SINK, the channel records, INT_PEND (set, never cleared) and a recorded
fault can change. -/
theorem transfer_frame {c : ChanId} {s t : State} (h : transfer c s = .next t) :
    (t = raiseFault .internal s) ∨
    (t = { s with
        dtx := t.dtx, rtx := t.rtx, rrx := t.rrx, sink := t.sink
        chPixel := t.chPixel, chFiller := t.chFiller, chRow := t.chRow, chOedone := t.chOedone
        status := { s.status with intPend := t.status.intPend } } ∧
      (s.status.intPend = true → t.status.intPend = true)) := by
  rcases transfer_next h with ⟨_, rfl⟩ | ⟨_, v, s1, s2, h1, h2, h3 | ⟨_, h3⟩⟩
  · exact .inr ⟨rfl, id⟩
  · obtain ⟨ha, hb⟩ := advanceChannel_ok h3
    have h1 := takeSource_ok h1
    have h2 := putWord_ok h2
    rw [h1] at h2
    rw [h2] at ha hb
    exact .inr ⟨by rw [ha], hb⟩
  · exact .inl h3

/-! ### The sequencer and the packer -/

@[simp] theorem advanceScan_chOedone (s : State) : (advanceScan s).chOedone = s.chOedone := by
  simp only [advanceScan]
  split <;> rfl

@[simp] theorem advanceScan_chPixel (s : State) : (advanceScan s).chPixel = s.chPixel := by
  simp only [advanceScan]
  split <;> rfl

/-- Steps 1 to 3 of the handler as one record update. -/
theorem advanceScan_eq (s : State) : advanceScan s = { s with
    status := { s.status with intPend := false }
    scan := nextScan s
    shamt := if (nextScan s).plane ≠ s.scan.plane then (nextScan s).plane else s.shamt
    desc := descOf (nextScan s).row (nextScan s).plane } := by
  unfold advanceScan
  by_cases h : (nextScan s).plane ≠ s.scan.plane
  · simp only [if_pos h]; rfl
  · simp only [if_neg h]; rfl

/-- Everything SEQ_STEP can do: pass, take the whole handler on idle channels, or record INTERNAL. -/
theorem execSeqStep_next {s t : State} (h : execSeqStep s = .next t) :
    (eventEnabled s = false ∧ t = s) ∨
    (eventEnabled s = true ∧ s.chOedone.active = false ∧ s.chPixel.active = false ∧ t = { s with
      status := { s.status with intPend := false }
      scan := nextScan s
      shamt := if (nextScan s).plane ≠ s.scan.plane then (nextScan s).plane else s.shamt
      desc := descOf (nextScan s).row (nextScan s).plane
      chRow := { s.chRow with read := .desc }
      chOedone := { s.chOedone with write := .sink, active := true, remain := s.chOedone.count }
      chPixel := { s.chPixel with
        read := .fb ((nextScan s).row.toNat * s.width * 2), active := true, remain := s.chPixel.count } }) ∨
    (eventEnabled s = true ∧ (s.chOedone.active = true ∨ s.chPixel.active = true) ∧ t = raiseFault .internal s) := by
  unfold execSeqStep at h
  split at h
  · rename_i he
    by_cases ha : s.chOedone.active = true ∨ s.chPixel.active = true
    · rw [seqBody, rearm_of_active (by simpa using ha)] at h
      cases h
      exact .inr (.inr ⟨he, ha, rfl⟩)
    · simp only [not_or, Bool.not_eq_true] at ha
      rw [seqBody, rearm_of_idle (by simpa using ha.1) (by simpa using ha.2), advanceScan_eq] at h
      cases h
      exact .inr (.inl ⟨he, ha.1, ha.2, rfl⟩)
  · rename_i he
    cases h
    exact .inl ⟨by simpa using he, rfl⟩

/-- Everything PATCH_SHIFT's own turn can do: pass, or set SHAMT where the sequencer and START would. -/
theorem execPatchShift_next {p : BitVec 4} {s t : State} (h : execPatchShift p s = .next t) :
    (patchEnabled p s = false ∧ t = s) ∨ (patchEnabled p s = true ∧ p = s.scan.plane ∧ t = { s with shamt := p }) := by
  unfold execPatchShift at h
  split at h
  · rename_i he
    refine .inr ⟨he, ?_, (Outcome.next.inj h).symm⟩
    simp only [patchEnabled, Bool.and_eq_true, decide_eq_true_eq] at he
    exact he.2
  · rename_i he
    exact .inl ⟨by simpa using he, (Outcome.next.inj h).symm⟩

/-- With SHAMT = PLANE, a turn of PATCH_SHIFT on its own changes nothing. -/
theorem execPatchShift_of_shiftInStep {p : BitVec 4} {s : State} (h : ShiftInStep s) : execPatchShift p s = .next s := by
  unfold execPatchShift
  split
  · rename_i he
    simp only [patchEnabled, Bool.and_eq_true, decide_eq_true_eq] at he
    have hp : s.shamt = p := Eq.trans h he.2.symm
    rw [← hp]
    rfl
  · rfl

/-- A pending write after the host's store is one from before it, but for its mark. -/
theorem mem_noteStores {a : Nat} {v : Byte} {s : State} {e : PackEntry} (h : e ∈ noteStores a v s) :
    ∃ e' ∈ s.pj, e = { e' with stale := e.stale } := by
  unfold noteStores at h
  split at h
  · exact ⟨e, h, rfl⟩
  · obtain ⟨e', he, rfl⟩ := List.mem_map.1 h
    exact ⟨e', he, rfl⟩

/-- The host's store neither adds nor removes a pending write. -/
@[simp] theorem noteStores_isEmpty {a : Nat} {v : Byte} {s : State} : (noteStores a v s).isEmpty = s.pj.isEmpty := by
  unfold noteStores
  split
  · rfl
  · cases s.pj <;> rfl

/-- A store of the byte already there leaves the job as it is. -/
theorem noteStores_of_same {a : Nat} {v : Byte} {s : State} (h : memRead a s = v) : noteStores a v s = s.pj :=
  if_pos h

/-- The packer's step on an enabled head entry. -/
theorem execPackWrite_head {s : State} {e : PackEntry} {rest : List PackEntry} (hp : s.pj = e :: rest)
    (he : packEnabled s = true) (hi : e.fbIndex < s.fbWords) : execPackWrite s = .next { s with
      fb := cellWrite e.fbIndex (storedWord e s) s.fb
      pj := rest
      draws := if e.stale then s.draws + 1 else s.draws
      status := { s.status with busy := if rest.isEmpty then false else s.status.busy } } := by
  have h : execPackWrite s = .next (popJob (drawFor e (fbWrite e.fbIndex (storedWord e s) s))) := by
    simp [execPackWrite, packStep, he, hp, hi]
  rw [h]
  cases rest <;> cases hst : e.stale <;> simp [popJob, drawFor, setBusy, fbWrite, hp, hst]

/-- Everything PACK_WRITE can do: pass, or perform the head entry. -/
theorem execPackWrite_next {s t : State} (h : execPackWrite s = .next t) :
    (packEnabled s = false ∧ t = s) ∨
    (∃ e rest, s.pj = e :: rest ∧ packEnabled s = true ∧ e.fbIndex < s.fbWords ∧ t = { s with
      fb := cellWrite e.fbIndex (storedWord e s) s.fb
      pj := rest
      draws := if e.stale then s.draws + 1 else s.draws
      status := { s.status with busy := if rest.isEmpty then false else s.status.busy } }) := by
  by_cases he : packEnabled s = true
  · cases hp : s.pj with
    | nil => simp [packEnabled, hp] at he
    | cons e rest =>
      by_cases hi : e.fbIndex < s.fbWords
      · rw [execPackWrite_head hp he hi] at h
        exact .inr ⟨e, rest, rfl, he, hi, (Outcome.next.inj h).symm⟩
      · simp [execPackWrite, packStep, he, hp, hi] at h
  · have hf : packEnabled s = false := by simpa using he
    simp only [execPackWrite, packStep, hf, Bool.false_eq_true, if_false] at h
    exact .inl ⟨hf, (Outcome.next.inj h).symm⟩

/-! ### Commands -/

/-- Everything a full-frame ingest can do. -/
theorem settle_fullFrame (o : Order) (s : State) :
    (∃ c, settle (fullFrame o s) s = raiseFault c s ∧ c ≠ .internal ∧ c ≠ .noFault) ∨
    (s.status.created = true ∧ s.status.busy = false ∧ s.srcLen.toNat = s.width * s.height * 3 ∧
      s.srcAddr.toNat + s.srcLen.toNat ≤ 2 ^ 32 ∧
      settle (fullFrame o s) s = { s with
        status := { s.status with busy := true }
        pj := fullFrameJob s.srcAddr.toNat s.width s.half o }) := by
  unfold fullFrame
  split
  · exact .inl ⟨_, rfl, by decide, by decide⟩
  split
  · exact .inl ⟨_, rfl, by decide, by decide⟩
  split
  · exact .inl ⟨_, rfl, by decide, by decide⟩
  split
  · exact .inl ⟨_, rfl, by decide, by decide⟩
  · rename_i h1 h2 h3 h4
    exact .inr ⟨by simpa using h1, by simpa using h2, by simpa using h3, by simpa using h4, rfl⟩

/-- Everything UPDATE_AREA can do. -/
theorem settle_partialArea (s : State) :
    (∃ c, settle (partialArea s) s = raiseFault c s ∧ c ≠ .internal ∧ c ≠ .noFault) ∨
    (s.status.created = true ∧ s.status.busy = false ∧
      lowHalf s.areaP1 ≤ lowHalf s.areaP2 ∧ highHalf s.areaP1 ≤ highHalf s.areaP2 ∧
      lowHalf s.areaP2 < s.width ∧ highHalf s.areaP2 < s.height ∧
      s.srcLen.toNat = (lowHalf s.areaP2 - lowHalf s.areaP1 + 1) * (highHalf s.areaP2 - highHalf s.areaP1 + 1) * 3 ∧
      s.srcAddr.toNat + s.srcLen.toNat ≤ 2 ^ 32 ∧
      settle (partialArea s) s = { s with
        status := { s.status with busy := true }
        pj := areaJob s.srcAddr.toNat s.width s.half (lowHalf s.areaP1) (highHalf s.areaP1)
          (lowHalf s.areaP2 - lowHalf s.areaP1 + 1) (highHalf s.areaP2 - highHalf s.areaP1 + 1)
          s.build.areaOrder }) := by
  unfold partialArea
  simp only
  split
  · exact .inl ⟨_, rfl, by decide, by decide⟩
  split
  · exact .inl ⟨_, rfl, by decide, by decide⟩
  split
  · exact .inl ⟨_, rfl, by decide, by decide⟩
  split
  · exact .inl ⟨_, rfl, by decide, by decide⟩
  split
  · exact .inl ⟨_, rfl, by decide, by decide⟩
  · rename_i h1 h2 h3 h4 h5
    simp only [not_or, Nat.not_lt, Nat.not_le] at h3
    exact .inr ⟨by simpa using h1, by simpa using h2, h3.1, h3.2.1, h3.2.2.1, h3.2.2.2, by simpa using h4,
      by simpa using h5, rfl⟩

/-- Everything START can do. -/
theorem runStart_cases (s : State) :
    (∃ c, runStart s = raiseFault c s ∧ c ≠ .noFault ∧
      (c = .internal → s.status.running = false ∧ (s.chOedone.active = true ∨ s.chPixel.active = true))) ∨
    (s.status.created = true ∧ s.status.running = false ∧ s.chOedone.active = false ∧ s.chPixel.active = false ∧
      runStart s = { s with
        desc := descOf s.scan.row s.scan.plane
        shamt := 0
        chRow := { s.chRow with read := .desc }
        chOedone := { s.chOedone with write := .sink, active := true, remain := s.chOedone.count }
        chPixel := { s.chPixel with read := .fb 0, active := true, remain := s.chPixel.count }
        status := { s.status with running := true } }) := by
  unfold runStart
  split
  · exact .inl ⟨_, rfl, by decide, nofun⟩
  split
  · exact .inl ⟨_, rfl, by decide, nofun⟩
  · rename_i h1 h2
    by_cases ha : s.chOedone.active = true ∨ s.chPixel.active = true
    · rw [rearm_of_active (by simpa [patchShift] using ha)]
      exact .inl ⟨_, rfl, by decide, fun _ => ⟨by simpa using h2, ha⟩⟩
    · simp only [not_or, Bool.not_eq_true] at ha
      rw [rearm_of_idle (by simpa [patchShift] using ha.1) (by simpa [patchShift] using ha.2)]
      exact .inr ⟨by simpa using h1, by simpa using h2, ha.1, ha.2, rfl⟩

/-- Everything CREATE can do. -/
theorem runCreate_cases (s : State) :
    (∃ c, runCreate s = raiseFault c s ∧ c ≠ .internal ∧ c ≠ .noFault) ∨
    (s.status.created = false ∧
      runCreate s = raiseFault .resource { s with status := { s.status with halted := true } }) ∨
    (s.status.created = false ∧ legalGeometry s.build.fbCapacity (lowHalf s.geom) (highHalf s.geom) = true ∧
      2 ≤ s.freeSm.length ∧ 4 ≤ s.freeCh.length ∧ runCreate s = created s) := by
  unfold runCreate
  split
  · exact .inl ⟨_, rfl, by decide, by decide⟩
  split
  · exact .inl ⟨_, rfl, by decide, by decide⟩
  split
  · rename_i h1 _ _
    exact .inr (.inl ⟨by simpa using h1, rfl⟩)
  · rename_i h1 h2 h3
    simp only [not_or, Nat.not_lt] at h3
    exact .inr (.inr ⟨by simpa using h1, by simpa using h2, h3.1, h3.2, rfl⟩)

/-! ### Claims -/

/-- Claiming from a pool without repeats that is large enough: distinct identifiers of the pool, and what is left is the
rest of it. -/
theorem claim_spec : ∀ (n draw : Nat) (pool : List Nat), pool.Nodup → n ≤ pool.length →
    (claim n draw pool).1.length = n ∧ (claim n draw pool).1.Nodup ∧ (∀ c ∈ (claim n draw pool).1, c ∈ pool) ∧
    (claim n draw pool).2.Nodup ∧
    (∀ c, c ∈ (claim n draw pool).2 ↔ c ∈ pool ∧ c ∉ (claim n draw pool).1)
  | 0, draw, pool, hn, _ => by simp [claim, hn]
  | n + 1, draw, pool, hn, hl => by
    have hpos : Config.freeIndex draw % pool.length < pool.length := Nat.mod_lt _ (by omega)
    have hx : pool.getD (Config.freeIndex draw % pool.length) 0 ∈ pool := by
      simp [List.getD, hpos]
    obtain ⟨h1, h2, h3, h4, h5⟩ := claim_spec n (draw + 1)
      (pool.erase (pool.getD (Config.freeIndex draw % pool.length) 0)) (hn.erase _)
      (by rw [List.length_erase_of_mem hx]; omega)
    simp only [claim]
    generalize pool.getD (Config.freeIndex draw % pool.length) 0 = x at *
    refine ⟨by simp [h1], ?_, ?_, h4, ?_⟩
    · rw [List.nodup_cons]
      exact ⟨fun hc => ((hn.mem_erase_iff).1 (h3 x hc)).1 rfl, h2⟩
    · intro c hc
      rcases List.mem_cons.1 hc with rfl | hc
      · exact hx
      · exact List.mem_of_mem_erase (h3 c hc)
    · intro c
      rw [h5, hn.mem_erase_iff, List.mem_cons, not_or]
      tauto

/-- A pool holds distinct identifiers below its limit. -/
theorem poolOf_spec (limit : Nat) (wanted claimed : List Nat) :
    (poolOf limit wanted claimed).Nodup ∧ ∀ c, c ∈ poolOf limit wanted claimed ↔
      c < limit ∧ c ∈ wanted ∧ c ∉ claimed := by
  refine ⟨List.Nodup.filter _ List.nodup_range, fun c => ?_⟩
  simp [poolOf]

end Sys2Proof.Machine
end

