-- ==== Sys2Proof/Laws/PerInstr.lean ====
section
/-! SUPPORT. Statements made per instruction. TableRow: the encoding of an instruction carries the bits that its row of
spec/opcode_table.json fixes. -/

namespace Sys2Proof.Laws.TableRow

/-- A row of spec/opcode_table.json: how many bits its word has, which of them it fixes, and at what values. -/
structure Row where
  nbits : Nat
  mask : Word
  value : Word
  deriving DecidableEq, Repr

/-- The row of each instruction, as spec/opcode_table.json has it. -/
def row : Instr → Row
  | .create => ⟨32, 0xFFFFFFFF, 0x00000001⟩
  | .start => ⟨32, 0xFFFFFFFF, 0x00000002⟩
  | .update => ⟨32, 0xFFFFFFFF, 0x00000003⟩
  | .updateBgr => ⟨32, 0xFFFFFFFF, 0x00000004⟩
  | .updateArea => ⟨32, 0xFFFFFFFF, 0x00000005⟩
  | .busWr _ _ _ => ⟨32, 0x80000000, 0x80000000⟩
  | .busRd _ _ => ⟨32, 0x80000000, 0x00000000⟩
  | .packWrite => ⟨8, 0xFF, 0x10⟩
  | .xferPixel => ⟨8, 0xFF, 0x20⟩
  | .xferFiller => ⟨8, 0xFF, 0x21⟩
  | .xferRow => ⟨8, 0xFF, 0x22⟩
  | .xferOedone => ⟨8, 0xFF, 0x23⟩
  | .seqStep => ⟨8, 0xFF, 0x30⟩
  | .patchShift _ => ⟨8, 0xFF, 0x31⟩
  | .serDataPop => ⟨8, 0xFF, 0x40⟩
  | .serRowTake => ⟨8, 0xFF, 0x41⟩
  | .serRowDone => ⟨8, 0xFF, 0x42⟩

/-- The width of an encoded form's word and the word. -/
def wordOf : Encoded → Nat × Word
  | .cmd32 word => (32, word)
  | .bus header _ _ => (32, header)
  | .event8 code _ => (8, code.setWidth 32)

/-- The encoding has the row's width and its fixed bits. -/
def Statement (i : Instr) : Prop :=
  (wordOf (encode i)).1 = (row i).nbits ∧ (wordOf (encode i)).2 &&& (row i).mask = (row i).value

theorem create : Statement .create := ⟨rfl, by decide⟩
theorem start : Statement .start := ⟨rfl, by decide⟩
theorem update : Statement .update := ⟨rfl, by decide⟩
theorem updateBgr : Statement .updateBgr := ⟨rfl, by decide⟩
theorem updateArea : Statement .updateArea := ⟨rfl, by decide⟩

/-- DIR is bit 31 of a header, above SIZE and OFFSET. -/
theorem dir_of_encodeBus (write : Bool) (size : Width) (offset : BitVec 16) :
    encodeBus write size offset &&& 0x80000000 = placeField 31 (BitVec.ofBool write) := by
  have top : ∀ i, i < 32 → (0x80000000 : Word).getLsbD i = decide (i = 31) := by decide
  apply BitVec.eq_of_getLsbD_eq
  intro i hi
  simp only [encodeBus, BitVec.getLsbD_and, BitVec.getLsbD_or, placeField_getLsbD, top i hi, bit_of_ofBool]
  by_cases h : i = 31
  · subst h
    simp
  · have : ¬ 31 ≤ i := by omega
    simp [h, this]

theorem busWr (size : Width) (offset : Word) (value : Word) : Statement (.busWr size offset value) :=
  ⟨rfl, dir_of_encodeBus true size _⟩
theorem busRd (size : Width) (offset : Word) : Statement (.busRd size offset) :=
  ⟨rfl, dir_of_encodeBus false size _⟩
theorem packWrite : Statement .packWrite := ⟨rfl, by decide⟩
theorem xferPixel : Statement .xferPixel := ⟨rfl, by decide⟩
theorem xferFiller : Statement .xferFiller := ⟨rfl, by decide⟩
theorem xferRow : Statement .xferRow := ⟨rfl, by decide⟩
theorem xferOedone : Statement .xferOedone := ⟨rfl, by decide⟩
theorem seqStep : Statement .seqStep := ⟨rfl, by decide⟩
theorem patchShift (plane : BitVec 4) : Statement (.patchShift plane) :=
  ⟨rfl, (by decide : (0x31 : Byte).setWidth 32 &&& (0xFF : Word) = 0x31)⟩
theorem serDataPop : Statement .serDataPop := ⟨rfl, by decide⟩
theorem serRowTake : Statement .serRowTake := ⟨rfl, by decide⟩
theorem serRowDone : Statement .serRowDone := ⟨rfl, by decide⟩

end Sys2Proof.Laws.TableRow
end

