-- ==== Sys2Proof/Tests/Slice0.lean ====
section
/-! SUPPORT. Tests of the model against values that stand in the spec (each names its source), and for every obligation
with hypotheses a witness that meets them. -/

open Sys2Proof Sys2Proof.Machine Host

namespace Sys2Proof.Tests

/-! ### Well-formedness and decoding -/

/-- The one check of WellFormed: 10 is no bit-plane (spec/41_scan_program.md R86). -/
theorem test_wellFormed_refuses_plane_10 :
    (Instr.patchShift 10).wellFormed = false ∧ (Instr.patchShift 9).wellFormed = true := by decide

/-- spec/30_encoding.md R57. -/
theorem test_decode_commands :
    decode (.cmd32 0x00000001) = .ok .create ∧ decode (.cmd32 0x00000002) = .ok .start ∧
    decode (.cmd32 0x00000003) = .ok .update ∧ decode (.cmd32 0x00000004) = .ok .updateBgr ∧
    decode (.cmd32 0x00000005) = .ok .updateArea := by decide

/-- spec/30_encoding.md R58; spec/95_test_vectors.md L2.8 (`cmd 0x0`, `cmd 0x6`, `cmd 0xF`, `wr CMD, 0x13`). -/
theorem test_decode_reserved_commands :
    decode (.cmd32 0x0) = .error .reservedCommand ∧ decode (.cmd32 0x6) = .error .reservedCommand ∧
    decode (.cmd32 0xF) = .error .reservedCommand ∧ decode (.cmd32 0x13) = .error .reservedCommand ∧
    decode (.cmd32 0x80000001) = .error .reservedCommand := ⟨rfl, rfl, rfl, rfl, rfl⟩

/-- spec/30_encoding.md R60; headers of spec/95_test_vectors.md L2.8 and P1: `wr GEOM`, `rd STATUS`, a 16-bit read, a
reserved width. -/
theorem test_decode_bus :
    decode (.bus 0x8002000C 0x00400040 0) = .ok (.busWr .bits32 0x00C 0x00400040) ∧
    decode (.bus 0x00020004 0 0) = .ok (.busRd .bits32 0x004) ∧
    decode (.bus 0x00010004 0 0) = .ok (.busRd .bits16 0x004) ∧
    decode (.bus 0x8003FFFF 7 0) = .ok (.busWr .reserved 0xFFFF 7) ∧
    decode (.bus 0x40000000 0 0) = .error .malformedHeader := by decide

/-- spec/30_encoding.md R61. -/
theorem test_decode_events :
    decode (.event8 0x10 0) = .ok .packWrite ∧ decode (.event8 0x20 0) = .ok .xferPixel ∧
    decode (.event8 0x21 0) = .ok .xferFiller ∧ decode (.event8 0x22 0) = .ok .xferRow ∧
    decode (.event8 0x23 0) = .ok .xferOedone ∧ decode (.event8 0x30 0) = .ok .seqStep ∧
    decode (.event8 0x31 9) = .ok (.patchShift 9) ∧ decode (.event8 0x40 0) = .ok .serDataPop ∧
    decode (.event8 0x41 0) = .ok .serRowTake ∧ decode (.event8 0x42 0) = .ok .serRowDone ∧
    decode (.event8 0x11 0) = .error .unnamedEvent ∧ decode (.event8 0x31 10) = .error .badPlane := by decide

/-! ### States -/

/-- The block after reset with the parameters of spec/95_test_vectors.md and every channel and slot free. -/
def blank : State := .afterReset Config.vectorBuild (List.range 12) (List.range 4) 0

/-- `blank` with the geometry argument set. -/
def sized (geom : Word) : State := { blank with geom := geom }

/-- A created W x H block with FB listing `fb`: the state CREATE leaves, with its free choices made. -/
def panel (w h : BitVec 16) (fb : List (Nat × Word)) : State :=
  { blank with
    status := { blank.status with created := true, intEn := true }
    cfg := ⟨w, h⟩
    roster := ⟨0, 1, 2, 3, 0, 1, true⟩
    freeCh := [4, 5, 6, 7, 8, 9, 10, 11]
    freeSm := [2, 3]
    fb := fb
    chPixel := harness w.toNat 8 .pixel
    chFiller := harness w.toNat 8 .filler
    chRow := harness w.toNat 8 .row
    chOedone := harness w.toNat 8 .oedone }

/-- The frame of program P2 after its UPDATE (spec/95_test_vectors.md). -/
def frame : List (Nat × Word) :=
  [(0, 0x000003FF), (1, 0x00000000), (2, 0x000FFC00), (3, 0x000FFFFF), (4, 0x3FF00000), (5, 0x3FFFFC00),
   (6, 0x3FFFFFFF), (7, 0x3FF003FF)]

/-- Program P2's panel. -/
def small : State := panel 2 4 frame

/-- The 64 x 64 panel. -/
def large : State := panel 64 64 []

/-- `s` with source arguments. -/
def sourced (s : State) (address length : Word) : State := { s with srcAddr := address, srcLen := length }

/-- The P2 panel with one pending write of source bytes (255, 0, 0) at 0x20000000 (L2.4). -/
def pending (o : Order) : State :=
  { small with
    status := { small.status with busy := true }
    mem := [(0x20000000, 255), (0x20000001, 0), (0x20000002, 0)]
    pj := [⟨0, 0x20000000, 0, o, false⟩] }

/-- A running block at scan position (row, plane), CH_OEDONE armed. -/
def scanning (s : State) (row : BitVec 5) (plane : BitVec 4) : State :=
  { s with
    status := { s.status with running := true }
    scan := ⟨row, plane⟩
    desc := descOf row plane
    shamt := plane
    chOedone := { s.chOedone with active := true, remain := 1 } }

/-- Program P2's panel running at row address 1, plane 1, standing at each of the seven positions of
spec/43_scan_stepper.md R109. -/
def standing : ScanPosition → State
  | .pixelRun =>
    { scanning small 1 1 with chPixel := { harness 2 8 .pixel with read := .fb 4, remain := 4, active := true } }
  | .fillerRun =>
    { scanning small 1 1 with dtx := [0x3FF003FF], chFiller := { harness 2 8 .filler with remain := 8, active := true } }
  | .rowSend =>
    { scanning small 1 1 with dtx := [0, 0], chRow := { harness 2 8 .row with remain := 1, active := true } }
  | .rowQueued => { scanning small 1 1 with rtx := [0x00000181] }
  | .rowShown => { scanning small 1 1 with phase := .busy 0x00000181 }
  | .tokenQueued => { scanning small 1 1 with rrx := [0x12345678] }
  | .eventPending =>
    { scanning small 1 1 with
      status := { small.status with running := true, intPend := true }
      chOedone := harness 2 8 .oedone }

/-- A running block with the event pending at (row, plane): SEQ_STEP is enabled. -/
def eventAt (s : State) (row : BitVec 5) (plane : BitVec 4) : State :=
  { scanning s row plane with
    status := { s.status with running := true, intPend := true }
    chOedone := s.chOedone }

/-- A field of the next state, if there is one. -/
def after {α : Type} (o : Outcome State Fault Refusal) (f : State → α) : Option α :=
  match o with
  | .next t => some (f t)
  | .fault _ => none
  | .refused _ => none

/-! ### One step against the spec's vectors -/

/-- L2.8, GEOM = (64, 64). -/
theorem test_create : after (exec .create (sized 0x00400040)) (fun t =>
    (readReg .status t, readReg .cfg t, readReg .scanpos t, readReg .desc t, readReg .shift t, t.roster.valid)) =
    some (0x21, 0x00400040, 0, 0xC0, 0, true) := by decide +kernel

/-- L2.8, GEOM = (64, 63), and P5 with three free channels. -/
theorem test_create_faults :
    after (exec .create (sized 0x003F0040)) (fun t => (readReg .status t, readReg .cause t)) = some (0x08, 7) ∧
    after (exec .create { sized 0x00400040 with freeCh := [0, 1, 2] })
      (fun t => (readReg .status t, readReg .cause t, readReg .roster t, readReg .cfg t)) = some (0x18, 1, 0, 0) := by
  decide +kernel

/-- L2.8, `cmd START` on the created 64 x 64 block. -/
theorem test_start : after (exec .start large) (fun t =>
    (readReg .status t, t.chPixel.read, t.chPixel.remain, t.chPixel.active, t.chOedone.remain, t.chOedone.active)) =
    some (0x23, .fb 0, 128, true, 1, true) := by decide +kernel

/-- L2.8, START running and START before CREATE. -/
theorem test_start_faults :
    after (exec .start (standing .pixelRun)) (fun t => (readReg .status t, readReg .cause t)) = some (0x2B, 4) ∧
    after (exec .start blank) (fun t => (readReg .status t, readReg .cause t)) = some (0x08, 3) := by decide +kernel

/-- P2, operation 5: the interleaved order p0, p4, p1, p5, p2, p6, p3, p7. -/
theorem test_update : after (exec .update (sourced small 0x1000 24)) (fun t =>
    (readReg .status t, t.pj.map PackEntry.fbIndex, t.pj.map PackEntry.pixel)) =
    some (0x25, [0, 1, 2, 3, 4, 5, 6, 7], [0, 4, 1, 5, 2, 6, 3, 7]) := by decide +kernel

/-- L2.3, SRC_ADDR = 0xFFFFF000 with SRC_LEN = 0x3000. -/
theorem test_update_badSrc : after (exec .update (sourced large 0xFFFFF000 0x3000)) (fun t =>
    (readReg .status t, readReg .cause t)) = some (0x29, 11) := by decide +kernel

/-- L2.3, SRC_LEN = 0. -/
theorem test_updateBgr_badLength : after (exec .updateBgr (sourced large 0 0)) (fun t =>
    (readReg .status t, readReg .cause t)) = some (0x29, 5) := by decide +kernel

/-- R79: the job is UPDATE's in BGR order. -/
theorem test_updateBgr : after (exec .updateBgr (sourced small 0x1000 24)) (fun t =>
    (t.pj.map PackEntry.pixel, t.pj.map PackEntry.order)) =
    some ([0, 4, 1, 5, 2, 6, 3, 7], List.replicate 8 .bgr) := by decide +kernel

/-- P2, operation 12. -/
theorem test_updateArea :
    after (exec .updateArea { sourced small 0x2000 6 with areaP1 := 0x00020001, areaP2 := 0x00030001 }) (fun t =>
      (t.pj.map PackEntry.fbIndex, t.pj.map PackEntry.pixel)) = some ([3, 7], [0, 1]) := by decide +kernel

/-- L2.3, area (0,0)-(0,64) with SRC_LEN = 0: BAD_AREA before BAD_LENGTH. -/
theorem test_updateArea_priority :
    after (exec .updateArea { sourced large 0 0 with areaP2 := 0x00400000 }) (readReg .cause) = some 6 := by
  decide +kernel

/-- L2.8, `wr GEOM, 0x00400040` and `wr DESC, 5`. -/
theorem test_busWr :
    after (exec (.busWr .bits32 0x00C 0x00400040) blank) (fun t => (readReg .geom t, readReg .status t)) =
      some (0x00400040, 0) ∧
    after (exec (.busWr .bits32 0x028 5) blank) (fun t => (readReg .desc t, readReg .cause t)) = some (0xC0, 9) := by
  decide +kernel

/-- L2.8, `rd PARAM`, `rd DESC`, a misaligned read and `rd FB[0]` before CREATE; P2, operation 7. -/
theorem test_busRd :
    after (exec (.busRd .bits32 0x034) blank) State.rdata = some 0x000A0008 ∧
    after (exec (.busRd .bits32 0x028) blank) State.rdata = some 0x000000C0 ∧
    after (exec (.busRd .bits32 0x006) blank) (fun t => (t.rdata, readReg .cause t)) = some (0, 9) ∧
    after (exec (.busRd .bits32 0x1000) blank) (fun t => (t.rdata, readReg .cause t)) = some (0, 9) ∧
    after (exec (.busRd .bits32 0x100C) small) State.rdata = some 0x000FFFFF := by decide +kernel

/-- spec/20_memory.md R40: the window of a 256 x 64 panel is 0x1000 to 0x10FFF, FB[15360] at 0x10000; the next word is
unmapped (R43). -/
theorem test_busRd_past_16_bits :
    decode (.bus 0x00020000 0 1) = .ok (.busRd .bits32 0x00010000) ∧
    encode (.busRd .bits32 0x00010000) = .bus 0x00020000 0 1 ∧
    after (exec (.busRd .bits32 0x00010000) (panel 256 64 [(15360, 0x155)])) State.rdata = some 0x155 ∧
    after (exec (.busRd .bits32 0x00011000) (panel 256 64 [])) (fun t => (t.rdata, readReg .cause t)) = some (0, 9) := by
  decide +kernel

/-- L2.4 with L2.1's byte orders: source bytes (255, 0, 0); the last entry clears BUSY. -/
theorem test_packWrite :
    after (exec .packWrite (pending .rgb)) (fun t => (fbRead 0 t, t.pj, readReg .status t)) =
      some (0x000003FF, [], 0x21) ∧
    after (exec .packWrite (pending .bgr)) (fbRead 0) = some 0x3FF00000 := by decide +kernel

/-- L2.1, the vectors marked GAMMA_REF. -/
theorem test_pack : pack Config.vectorBuild 128 64 32 = 0x00B0C4E1 ∧ pack Config.vectorBuild 100 200 254 = 0x3F695C82 ∧
    pack Config.vectorBuild 10 20 30 = 0x00901001 := by decide +kernel

/-- L2.2: fbindex on the 64 x 64 and 2 x 4 panels. -/
theorem test_fbIndex : fbIndex 64 32 5 40 = 1035 ∧ fbIndex 64 32 0 31 = 3968 ∧ fbIndex 64 32 63 63 = 4095 ∧
    fbIndex 2 2 1 2 = 3 ∧ fbIndex 2 2 1 3 = 7 ∧ fbIndex 1 1 0 1 = 1 := by decide

/-- L2.6, W = 2, ROW = 1: the run starts with FB[4]. -/
theorem test_xferPixel : after (exec .xferPixel (standing .pixelRun)) (fun t =>
    (t.dtx, t.chPixel.read, t.chPixel.remain, t.chPixel.active)) =
    some ([0x3FF00000], .fb 5, 3, true) := by decide +kernel

/-- L2.6: the run's last word is FB[7], READ ends at FB(8), CH_FILLER is triggered with REMAIN = 8. -/
theorem test_xferPixel_last :
    after (exec .xferPixel { standing .pixelRun with
      chPixel := { harness 2 8 .pixel with read := .fb 7, remain := 1, active := true } }) (fun t =>
      (t.dtx, t.chPixel.read, t.chPixel.active, t.chFiller.active, t.chFiller.remain)) =
    some ([0x3FF003FF], .fb 8, false, true, 8) := by decide +kernel

/-- L2.6: the filler's last push triggers CH_ROW with REMAIN = 1. -/
theorem test_xferFiller :
    after (exec .xferFiller { standing .fillerRun with
      chFiller := { harness 2 8 .filler with remain := 1, active := true } }) (fun t =>
      (t.dtx, t.chFiller.active, t.chRow.active, t.chRow.remain)) =
    some ([0x3FF003FF, 0], false, true, 1) := by decide +kernel

/-- L2.6: DESC = 0x00000181 at the transfer; no chain, no event. -/
theorem test_xferRow : after (exec .xferRow (standing .rowSend)) (fun t =>
    (t.rtx, t.chRow.active, t.status.intPend)) = some ([0x00000181], false, false) := by decide +kernel

/-- R101's example: token 0x12345678. -/
theorem test_xferOedone : after (exec .xferOedone (standing .tokenQueued)) (fun t =>
    (t.sink, t.rrx, t.chOedone.active, t.status.intPend)) = some (0x12345678, [], false, true) := by decide +kernel

/-- L2.7, HALF = 32: (31, 0) to (0, 1) with a patch, and (30, 2) to (31, 2) without. -/
theorem test_seqStep :
    after (exec .seqStep (eventAt large 31 0)) (fun t =>
      (t.scan, t.desc, t.shamt, t.status.intPend)) = some (⟨0, 1⟩, 0x00000180, 1, false) ∧
    after (exec .seqStep (eventAt large 31 0)) (fun t => (t.chPixel.read, t.chPixel.remain, t.chOedone.active)) =
      some (.fb 0, 128, true) ∧
    after (exec .seqStep { eventAt large 30 2 with shamt := 7 }) (fun t => (t.scan, t.desc, t.shamt, t.chPixel.read)) =
      some (⟨31, 2⟩, 0x0000031F, 7, .fb 3968) := by decide +kernel

/-- L2.7: (31, 9) wraps to (0, 0), and HALF = 1 advances the plane at every step. -/
theorem test_seqStep_wrap :
    after (exec .seqStep (eventAt large 31 9)) (fun t => (t.scan, t.desc, t.shamt)) = some (⟨0, 0⟩, 0xC0, 0) ∧
    after (exec .seqStep (eventAt (panel 1 2 []) 0 4)) (fun t => (t.scan, t.desc, t.shamt)) =
      some (⟨0, 5⟩, 0x00001800, 5) := by decide +kernel

/-- L2.5: word 0x00000002 yields (0, 0, 0) at shift 0 and (1, 0, 0) at shift 1, the shift PATCH_SHIFT leaves. -/
theorem test_patchShift : after (exec (.patchShift 1) { small with scan := ⟨0, 1⟩ }) State.shamt = some 1 ∧
    colourBits ⟨0x00000002, 0, .top⟩ = (false, false, false) ∧
    colourBits ⟨0x00000002, 1, .top⟩ = (true, false, false) := by decide +kernel

/-- R104: the sequencer has no other step, so before CREATE, after RESOURCE and for another plane a turn of the patch
passes. -/
theorem test_patchShift_passes : after (exec (.patchShift 0) { blank with shamt := 7 }) State.shamt = some 7 ∧
    after (exec (.patchShift 1) (standing .pixelRun)) State.shamt = some 1 ∧
    after (exec (.patchShift 2) (standing .pixelRun)) State.shamt = some 1 := by decide +kernel

/-- R146, R81: a store of the byte already there changes none and leaves the entry as it was; another byte marks it. -/
theorem test_hostStore : (hostStore 0x20000000 255 (pending .rgb)).pj = (pending .rgb).pj ∧
    (hostStore 0x20000000 254 (pending .rgb)).pj = [⟨0, 0x20000000, 0, .rgb, true⟩] ∧
    (hostStore 0x20000003 1 { pending .rgb with mem := [(0x20000003, 0)] }).pj = (pending .rgb).pj := by
  decide +kernel

/-- L2.5: lanes alternate from TOP, and the shift in force is recorded. -/
theorem test_serDataPop :
    after (exec .serDataPop { small with dtx := [0x000003FF, 7], shamt := 3 }) (fun t => (t.dtx, t.ds, t.popped)) =
      some ([7], [⟨0x000003FF, 3, .top⟩], 1) ∧
    after (exec .serDataPop { small with dtx := [9], popped := 1 }) State.ds = some [⟨9, 0, .bottom⟩] := by
  decide +kernel

/-- R89 with L1.2: descriptor 0x00000605 drives row 5 with pulse width 48. -/
theorem test_serRowTake : after (exec .serRowTake { small with rtx := [0x00000605] }) (fun t =>
    (t.rtx, t.rs, panelOutput t)) = some ([], [0x00000605], some (5, 48)) := by decide +kernel

/-- R90: one token, and the phase returns to IDLE. -/
theorem test_serRowDone : after (exec .serRowDone (standing .rowShown)) (fun t => (t.rrx.length, t.phase)) =
    some (1, .idle) := by decide +kernel

/-- L1.2: descriptor words. -/
theorem test_descOf : descOf 0 9 = 0x00018000 ∧ descOf 31 9 = 0x0001801F ∧ descOf 5 3 = 0x00000605 := by decide

/-! ### Witnesses: encodings, the step, reset -/

theorem witness_DecodeOfEncodeIsIdentity : (Instr.patchShift 9).wellFormed = true ∧ (Instr.patchShift 0).wellFormed = true ∧
    (Instr.busWr .reserved 0xFFFFFFFF 0xFFFFFFFF).wellFormed = true := by decide

theorem witness_EncodeOfDecodeIsIdentity :
    decode (.cmd32 5) = .ok .updateArea ∧ decode (.bus 0x8003FFFF 7 0) = .ok (.busWr .reserved 0xFFFF 7) ∧
    decode (.bus 0x00000000 7 0) = .ok (.busRd .bits8 0) ∧ decode (.event8 0x31 9) = .ok (.patchShift 9) := by decide

theorem witness_ReservedCommandFaultsBadCmd : blank.status.halted = false ∧
    ((0 : Word).toNat = 0 ∨ 6 ≤ (0 : Word).toNat) ∧ ((6 : Word).toNat = 0 ∨ 6 ≤ (6 : Word).toNat) ∧
    ((0xFFFFFFFF : Word).toNat = 0 ∨ 6 ≤ (0xFFFFFFFF : Word).toNat) := by decide +kernel

theorem witness_StepRunsDecodedInstruction : ({ blank with input := [.op (.event8 0x20 0)] } : State).input =
    .op (.event8 0x20 0) :: [] ∧ decode (.event8 0x20 0) = .ok .xferPixel := ⟨rfl, rfl⟩

theorem witness_StepTakesOutsideInputs : blank.input = [] ∧
    ({ pending .rgb with input := [.store 0x20000002 1] } : State).input = .store 0x20000002 1 :: [] ∧
    ({ small with input := [.pools [0, 11, 12] [3]] } : State).input = .pools [0, 11, 12] [3] :: [] := ⟨rfl, rfl, rfl⟩

theorem witness_ResetLeavesResetValues :
    ({ standing .rowShown with input := [.reset] } : State).input = .reset :: [] := rfl

/-! ### Witnesses: faults and the register window -/

theorem witness_IllegalAccessFaultsBadReg : Width.bits16 ≠ .bits32 ∧ Width.reserved ≠ .bits32 ∧
    (0x035 : Word).toNat % 4 ≠ 0 ∧ (0x038 ≤ (0x038 : Word).toNat ∧ (0x038 : Word).toNat < 0x1000) ∧
    (0x038 ≤ (0xFFF : Word).toNat ∧ (0xFFF : Word).toNat < 0x1000) ∧
    0x1000 + 4 * small.fbWords ≤ (0x1020 : Word).toNat ∧ 0x1000 + 4 * blank.fbWords ≤ (0x1000 : Word).toNat := by
  decide +kernel

theorem witness_FaultsArePrecise :
    (blank.status.fault = false ∧ (raiseFault .badCmd blank).status.fault = true) ∧
    (∃ t, exec .start blank = .next t ∧ t.status.fault = true) ∧
    (∃ t, exec .create { sized 0x00020001 with freeSm := [0] } = .next t ∧ t.status.fault = true) ∧
    ∃ t, exec (.busRd .bits8 0) blank = .next t ∧ t.status.fault = true :=
  ⟨by decide, ⟨_, rfl, by decide +kernel⟩, ⟨_, rfl, by decide +kernel⟩, _, rfl, by decide +kernel⟩

/-- At the first and the last word of P2's panel, and at the last of a panel whose window ends at offset 0x10FFF. -/
theorem witness_BusReadReturnsFrameBufferWord : (small.height ≤ 64 ∧ 0 < small.fbWords ∧ 7 < small.fbWords) ∧
    (panel 256 64 []).height ≤ 64 ∧ 16383 < (panel 256 64 []).fbWords := by decide +kernel

theorem witness_BusWriteOfReadOnlyFaults : (small.height ≤ 64 ∧ 7 < small.fbWords) ∧
    (panel 256 64 []).height ≤ 64 ∧ 15360 < (panel 256 64 []).fbWords := by decide +kernel

/-- The halted block of P5. -/
def halted : State := { blank with status := { blank.status with fault := true, halted := true }, cause := .resource }

theorem witness_HaltedBlockIgnoresCommands : halted.status.halted = true := rfl

/-! ### Witnesses: CREATE and START -/

/-- At the smallest panel, and at 64 x 64 with FB_CAPACITY words. -/
theorem witness_CreateConfiguresBlock : ∀ g ∈ [(0x00020001, 1, 2), (0x00400040, 64, 64)],
    g.2.1 = ((sized g.1).geom.extractLsb' 0 16).toNat ∧ g.2.2 = ((sized g.1).geom.extractLsb' 16 16).toNat ∧
    (sized g.1).status.halted = false ∧ (sized g.1).status.created = false ∧ 1 ≤ g.2.1 ∧ 2 ≤ g.2.2 ∧ g.2.2 % 2 = 0 ∧
    g.2.2 ≤ 64 ∧ g.2.1 * g.2.2 ≤ (sized g.1).build.fbCapacity ∧ 2 ≤ (sized g.1).freeSm.length ∧
    4 ≤ (sized g.1).freeCh.length ∧ (sized g.1).freeSm.Nodup ∧ (sized g.1).freeCh.Nodup ∧
    (∀ c ∈ (sized g.1).freeSm, c < 4) ∧ (∀ c ∈ (sized g.1).freeCh, c < 16) := by
  simp only [List.mem_cons, List.not_mem_nil, or_false, forall_eq_or_imp, forall_eq]
  decide +kernel

theorem witness_CreateFaultsInOrder :
    (large.status.halted = false ∧ large.status.created = true) ∧
    ((sized 0x00020000).status.created = false ∧ ((sized 0x00020000).geom.extractLsb' 0 16).toNat = 0) ∧
    ((sized 0x00400041).geom.extractLsb' 0 16).toNat * ((sized 0x00400041).geom.extractLsb' 16 16).toNat = 4160 ∧
    (sized 0x00400041).build.fbCapacity < 4160 ∧
    (({ sized 0x00020001 with freeCh := [0, 1, 2] } : State).freeCh.length < 4 ∧
      ({ sized 0x00020001 with freeSm := [0] } : State).freeSm.length < 2) := by decide +kernel

theorem witness_StartArmsChain : large.status.halted = false ∧ large.status.created = true ∧
    large.status.running = false ∧ large.chOedone.active = false ∧ large.chPixel.active = false := by decide +kernel

theorem witness_StartFaultsInOrder :
    (blank.status.halted = false ∧ blank.status.created = false) ∧
    ((standing .fillerRun).status.created = true ∧ (standing .fillerRun).status.running = true) ∧
    (({ small with chPixel := { small.chPixel with active := true } } : State).status.running = false ∧
      ({ small with chPixel := { small.chPixel with active := true } } : State).chPixel.active = true) := by
  decide +kernel

/-! ### Witnesses: ingest -/

/-- A source range that ends exactly at 2^32. -/
theorem witness_FullFrameCommandsQueueJob : ∀ s, s = sourced small 0xFFFFFFE8 24 →
    s.status.halted = false ∧ s.status.created = true ∧ s.status.busy = false ∧
    s.srcLen.toNat = s.width * s.height * 3 ∧ s.srcAddr.toNat + s.srcLen.toNat = 2 ^ 32 := by
  rintro s rfl
  decide +kernel

/-- The 1 x 1 area at the last pixel. -/
theorem witness_UpdateAreaQueuesJob : ∀ s, s = { sourced small 0x2000 3 with areaP1 := 0x00030001, areaP2 := 0x00030001 } →
    (s.areaP1.extractLsb' 0 16).toNat = 1 ∧ (s.areaP1.extractLsb' 16 16).toNat = 3 ∧ s.areaP2 = s.areaP1 ∧
    s.status.halted = false ∧ s.status.created = true ∧ s.status.busy = false ∧ 1 < s.width ∧ 3 < s.height ∧
    s.srcLen.toNat = (1 - 1 + 1) * (3 - 3 + 1) * 3 ∧ s.srcAddr.toNat + s.srcLen.toNat ≤ 2 ^ 32 := by
  rintro s rfl
  decide +kernel

theorem witness_IngestFaultsInOrder :
    blank.status.created = false ∧ ((pending .rgb).status.created = true ∧ (pending .rgb).status.busy = true) ∧
    (sourced small 0 23).srcLen.toNat ≠ small.width * small.height * 3 ∧
    ((sourced small 0xFFFFFFE9 24).srcLen.toNat = small.width * small.height * 3 ∧
      2 ^ 32 < (sourced small 0xFFFFFFE9 24).srcAddr.toNat + (sourced small 0xFFFFFFE9 24).srcLen.toNat) ∧
    small.width ≤ ((0x00000002 : Word).extractLsb' 0 16).toNat ∧
    small.height ≤ ((0x00040000 : Word).extractLsb' 16 16).toNat ∧
    ((0x00000000 : Word).extractLsb' 0 16).toNat < ((0x00000001 : Word).extractLsb' 0 16).toNat ∧
    (sourced small 0 9).srcLen.toNat ≠ (1 - 0 + 1) * (1 - 0 + 1) * 3 ∧
    2 ^ 32 < (sourced small 0xFFFFFFFE 3).srcAddr.toNat + (sourced small 0xFFFFFFFE 3).srcLen.toNat := by
  decide +kernel

theorem witness_FbIndexIsBijection : (0 < 1 ∧ 0 < 2 * 1 ∧ 1 < 2 * 1) ∧ fbIndex 1 1 0 0 ≠ fbIndex 1 1 0 1 := by decide

theorem witness_JobReadsOnlyLatchedRange : (sourced small 0x1000 24).pj = [] ∧
    (∃ t, exec .update (sourced small 0x1000 24) = .next t ∧ t.pj ≠ []) :=
  ⟨rfl, _, rfl, by decide +kernel⟩

/-- The last entry of a job, in RGB order. -/
theorem witness_PackWriteStoresPixel : ∀ s, s = pending .rgb →
    s.pj = ⟨0, 0x20000000, 0, .rgb, false⟩ :: [] ∧ 0 < s.fbWords ∧
    admits s.build 0x20000000 = true ∧ admits s.build 0x20000001 = true ∧ admits s.build 0x20000002 = true := by
  rintro s rfl
  exact ⟨rfl, by decide +kernel, by decide, by decide, by decide⟩

/-- The same entry after the host has changed its last byte. -/
theorem witness_PackWriteOfChangedSourceIsFree : ∀ s, s = hostStore 0x20000002 9 (pending .bgr) →
    s.pj = ⟨0, 0x20000000, 0, .bgr, true⟩ :: [] ∧ 0 < s.fbWords ∧
    ∀ a ∈ entryAddresses ⟨0, 0x20000000, 0, .bgr, true⟩, admits s.build a = true := by
  rintro s rfl
  exact ⟨rfl, by decide +kernel, by decide⟩

/-! ### Witnesses: transfers, scan, serializers -/

theorem witness_XferPixelMovesWord :
    (standing .pixelRun).chPixel = ⟨.fb 4, true, .dtx, false, 4, 3 + 1, true, some .filler, .dtxSpace, false⟩ ∧
    4 < (standing .pixelRun).fbWords ∧ (standing .pixelRun).dtx.length < (standing .pixelRun).build.serTxDepth ∧
    (⟨.fb 7, true, .dtx, false, 4, 0 + 1, true, some .filler, .dtxSpace, false⟩ : Channel) =
      { harness 2 8 .pixel with read := .fb 7, remain := 1, active := true } ∧ 7 < small.fbWords ∧
    (standing .pixelRun).chFiller.active = false := by decide +kernel

theorem witness_XferFillerMovesZero :
    (standing .fillerRun).chFiller = ⟨.zero, false, .dtx, false, 8, 7 + 1, true, some .row, .dtxSpace, false⟩ ∧
    (standing .fillerRun).dtx.length < (standing .fillerRun).build.serTxDepth ∧
    (⟨.zero, false, .dtx, false, 8, 0 + 1, true, some .row, .dtxSpace, false⟩ : Channel) =
      { harness 2 8 .filler with remain := 1, active := true } ∧
    (standing .fillerRun).chRow.active = false := by decide +kernel

theorem witness_XferRowSendsDescriptor :
    (standing .rowSend).chRow = ⟨.desc, false, .rtx, false, 1, 1, true, none, .rtxSpace, false⟩ ∧
    (standing .rowSend).rtx.length < (standing .rowSend).build.serTxDepth := by decide +kernel

theorem witness_XferOedoneRaisesEvent :
    (standing .tokenQueued).chOedone = ⟨.rrx, false, .sink, false, 1, 1, true, none, .rrxData, true⟩ ∧
    (standing .tokenQueued).rrx = 0x12345678 :: [] := by decide +kernel

/-- A CH_PIXEL run's last word with CH_FILLER active, a CH_FILLER run's last word with CH_ROW active, the event with
CH_PIXEL active. -/
theorem witness_TriggerOfActiveChannelFaultsInternal :
    (∀ s, s = { standing .fillerRun with
        chPixel := ⟨.fb 7, true, .dtx, false, 4, 1, true, some .filler, .dtxSpace, false⟩ } →
      7 < s.fbWords ∧ s.dtx.length < s.build.serTxDepth ∧ s.chFiller.active = true) ∧
    (∀ s, s = { standing .rowSend with
        chFiller := ⟨.zero, false, .dtx, false, 8, 1, true, some .row, .dtxSpace, false⟩ } →
      s.dtx.length < s.build.serTxDepth ∧ s.chRow.active = true) ∧
    (∀ s, s = { standing .eventPending with chPixel := { harness 2 8 .pixel with active := true, remain := 1 } } →
      s.status.running = true ∧ s.status.intEn = true ∧ s.status.intPend = true ∧ s.chPixel.active = true) := by
  refine ⟨?_, ?_, ?_⟩ <;> rintro s rfl <;> decide +kernel

/-- Records with a READ and a WRITE that R97 has no rule for, words at W x H. -/
theorem witness_AccessesWithoutRuleStop :
    (∀ l ∈ [Loc.sink, .fb 8, .rrx], transferEnabled .pixel
      { standing .pixelRun with chPixel := { harness 2 8 .pixel with read := l, remain := 1, active := true } } = true) ∧
    transferEnabled .filler { standing .fillerRun with
      chFiller := { harness 2 8 .filler with write := .fb 0, remain := 1, active := true } } = true ∧
    packEnabled { pending .rgb with pj := [⟨8, 0x20000000, 0, .rgb, false⟩] } = true ∧ small.fbWords ≤ 8 := by
  simp only [List.mem_cons, List.not_mem_nil, or_false, forall_eq_or_imp, forall_eq]
  decide +kernel

theorem witness_AgentsWithoutStepWait :
    small.pj = [] ∧
    ((pending .rgb).pj = ⟨0, 0x20000000, 0, .rgb, false⟩ :: [] ∧
      admits { Config.vectorBuild with srcAdmit := [(0, 0x20000001)] } 0x20000002 = false) ∧
    ((standing .fillerRun).chPixel.active = false ∧ (standing .tokenQueued).build.serTxDepth ≤ [1, 2, 3, 4].length ∧
      (standing .rowShown).rrx = [] ∧ (standing .rowShown).chOedone.pace = .rrxData) ∧
    (standing .pixelRun).status.intPend = false ∧ small.dtx = [] ∧ (small.phase = .idle ∧ small.rtx = []) ∧
    (standing .tokenQueued).build.serRxDepth ≤ (standing .tokenQueued).rrx.length :=
  ⟨rfl, ⟨rfl, by decide⟩, ⟨rfl, by decide, rfl, rfl⟩, rfl, rfl, ⟨rfl, rfl⟩, by decide⟩

/-- In the middle of a sweep, at its end and at the end of the scan cycle (L2.7). -/
theorem witness_SeqStepAdvancesScan : ∀ x ∈ [(30, 2, 31, 2), (31, 0, 0, 1), (31, 9, 0, 0)], ∀ s,
    s = eventAt large (BitVec.ofNat 5 x.1) (BitVec.ofNat 4 x.2.1) →
    s.status.running = true ∧ s.status.intEn = true ∧ s.status.intPend = true ∧ s.chOedone.active = false ∧
    s.chPixel.active = false ∧ s.height / 2 ≤ 32 ∧
    x.2.2.1 = (if s.scan.row.toNat + 1 ≥ s.height / 2 then 0 else s.scan.row.toNat + 1) ∧
    x.2.2.2 = (if s.scan.row.toNat + 1 ≥ s.height / 2 then
      (if s.scan.plane.toNat + 1 ≥ 10 then 0 else s.scan.plane.toNat + 1) else s.scan.plane.toNat) := by
  simp only [List.mem_cons, List.not_mem_nil, or_false, forall_eq_or_imp, forall_eq]
  decide +kernel

/-- SEQ_STEP taken again and again from one state, each time with the event pending and the channels idle. -/
def sweep (s : State) : Nat → State
  | 0 => s
  | k + 1 => { sweep s k with scan := nextScan (sweep s k) }

theorem sweep_scanRun {s : State} (he : eventEnabled s = true) (ho : s.chOedone.active = false)
    (hp : s.chPixel.active = false) : ScanRun s.half (sweep s) := by
  have keep : ∀ k, (sweep s k).half = s.half ∧ eventEnabled (sweep s k) = true ∧
      (sweep s k).chOedone.active = false ∧ (sweep s k).chPixel.active = false := by
    intro k
    induction k with
    | zero => exact ⟨rfl, he, ho, hp⟩
    | succ k ih => exact ih
  refine ⟨fun k => (keep k).1, fun k => (keep k).2, fun k => ?_⟩
  obtain ⟨_, h1, h2, h3⟩ := keep k
  simp only [exec, execSeqStep, h1, if_true, seqBody]
  rw [rearm_of_idle (by simpa using h2) (by simpa using h3), advanceScan_eq]
  exact ⟨_, rfl, rfl⟩

/-- `sweep` with the shift patched to the plane each time. -/
def follow (s : State) : Nat → State
  | 0 => s
  | k + 1 => { follow s k with scan := nextScan (follow s k), shamt := (nextScan (follow s k)).plane }

theorem follow_scanRun {s : State} (he : eventEnabled s = true) (ho : s.chOedone.active = false)
    (hp : s.chPixel.active = false) : ScanRun s.half (follow s) := by
  have keep : ∀ k, (follow s k).half = s.half ∧ eventEnabled (follow s k) = true ∧
      (follow s k).chOedone.active = false ∧ (follow s k).chPixel.active = false := by
    intro k
    induction k with
    | zero => exact ⟨rfl, he, ho, hp⟩
    | succ k ih => exact ih
  refine ⟨fun k => (keep k).1, fun k => (keep k).2, fun k => ?_⟩
  obtain ⟨_, h1, h2, h3⟩ := keep k
  simp only [exec, execSeqStep, h1, if_true, seqBody]
  rw [rearm_of_idle (by simpa using h2) (by simpa using h3), advanceScan_eq]
  exact ⟨_, rfl, rfl⟩

/-- On the smallest panel, at the last plane, and on the largest (L1.3). -/
theorem witness_RowSweepAdvancesPlane :
    (ScanRun 1 (sweep (eventAt (panel 1 2 []) 0 9)) ∧ (sweep (eventAt (panel 1 2 []) 0 9) 0).scan = ⟨0, 9⟩) ∧
    (ScanRun 32 (sweep (eventAt large 0 3)) ∧ (sweep (eventAt large 0 3) 0).scan = ⟨0, 3⟩) :=
  ⟨⟨sweep_scanRun (s := eventAt (panel 1 2 []) 0 9) rfl rfl rfl, rfl⟩,
    sweep_scanRun (s := eventAt large 0 3) rfl rfl rfl, rfl⟩

theorem witness_ScanCycleVisitsEveryPosition : ScanRun 2 (sweep (eventAt small 0 0)) ∧
    (sweep (eventAt small 0 0) 0).scan = ⟨0, 0⟩ ∧ (sweep (eventAt small 0 0) 19).scan = ⟨1, 9⟩ :=
  ⟨sweep_scanRun (s := eventAt small 0 0) rfl rfl rfl, rfl, by decide +kernel⟩

/-- At both ends of the planes with another shift in force, where it passes, and over the cycle of a panel of two row
addresses. -/
theorem witness_PatchShiftSetsShamt :
    (∀ p ∈ [(0 : BitVec 4), 9], ∀ s, s = { standing .pixelRun with scan := ⟨1, p⟩, shamt := 5 } →
      s.status.created = true ∧ s.status.halted = false ∧ p = s.scan.plane) ∧
    (blank.status.created = false ∧ halted.status.halted = true ∧
      (2 : BitVec 4) ≠ (standing .pixelRun).scan.plane ∧ ShiftInStep (standing .pixelRun)) ∧
    ScanRun 2 (follow (eventAt small 0 0)) ∧ (∀ k, ShiftInStep (follow (eventAt small 0 0) k)) ∧
    (follow (eventAt small 0 0) 0).scan = ⟨0, 0⟩ :=
  ⟨by rintro p - s rfl; exact ⟨rfl, rfl, rfl⟩, ⟨rfl, rfl, by decide, rfl⟩,
    follow_scanRun (s := eventAt small 0 0) rfl rfl rfl, fun k => by cases k <;> rfl, rfl⟩

theorem witness_DescriptorDecodesBack : (9 : BitVec 4).toNat < 10 ∧ (0 : BitVec 4).toNat < 10 := by decide

theorem witness_SerDataPopLogsWord : (standing .fillerRun).dtx = 0x3FF003FF :: [] := rfl

theorem witness_SerRowTakeShowsDescriptor :
    (standing .rowQueued).phase = .idle ∧ (standing .rowQueued).rtx = 0x00000181 :: [] := ⟨rfl, rfl⟩

theorem witness_SerRowDonePushesToken : (standing .rowShown).phase = .busy 0x00000181 ∧
    (standing .rowShown).rrx.length < (standing .rowShown).build.serRxDepth := by decide +kernel

theorem witness_ShiftSelectsBitPlane : (0 : BitVec 4).toNat < 10 ∧ (9 : BitVec 4).toNat < 10 := by decide

/-! ### Witnesses: the invariant, at every position of the scan path -/

/-- The P2 panel stands at the position named. -/
theorem standing_at (p : ScanPosition) : At p (standing p) := by
  cases p <;> exact ⟨rfl, rfl, rfl, rfl, rfl, rfl, rfl, rfl⟩

/-- What the seven states share of the invariant. -/
theorem small_shared (p : ScanPosition) : (standing p).build = Config.vectorBuild ∧ (standing p).mem = [] ∧
    (standing p).fb = frame ∧ (standing p).pj = [] ∧ (standing p).cfg = ⟨2, 4⟩ ∧ (standing p).roster = small.roster ∧
    (standing p).freeCh = small.freeCh ∧ (standing p).freeSm = small.freeSm ∧ (standing p).status.running = true := by
  cases p <;> exact ⟨rfl, rfl, rfl, rfl, rfl, rfl, rfl, rfl, rfl⟩

theorem standing_inv (p : ScanPosition) : Inv (standing p) where
  build := by rw [(small_shared p).1]; exact Config.vectorBuild_admissible
  mem := by cases p <;> rfl
  fb := by cases p <;> decide +kernel
  busy := by cases p <;> rfl
  cause := by cases p <;> decide
  jobs := by rw [(small_shared p).2.2.2.1]; simp
  running := by cases p <;> exact fun _ => rfl
  notHalted := by cases p <;> exact fun _ => rfl
  intEn := by cases p <;> rfl
  valid := by cases p <;> rfl
  geometry := by cases p <;> decide +kernel
  row := by cases p <;> decide +kernel
  plane := by cases p <;> decide +kernel
  desc := by cases p <;> rfl
  shamt := by cases p <;> decide +kernel
  freeCh := by cases p <;> decide +kernel
  freeSm := by cases p <;> decide +kernel
  roster := fun _ => by cases p <;> exact ⟨by decide, by decide, by decide +kernel, by decide +kernel⟩
  configured := fun _ => by cases p <;> exact ⟨by decide +kernel, by decide +kernel, by decide +kernel, by decide +kernel⟩
  runs := by
    cases p <;> exact ⟨⟨by decide +kernel, by decide +kernel⟩, ⟨by decide +kernel, by decide +kernel⟩,
      ⟨by decide +kernel, by decide +kernel⟩, ⟨by decide +kernel, by decide +kernel⟩⟩
  pixelRead := by cases p <;> simp only [PixelRead] <;> decide +kernel
  depth := by cases p <;> decide +kernel
  path := by
    rw [if_pos (small_shared p).2.2.2.2.2.2.2.2]
    refine ⟨p, standing_at p, ?_⟩
    cases p
    case pixelRun => exact fun h => absurd rfl h
    case rowSend =>
      intro _ w hw
      have hw : w ∈ [0, 0] := hw
      simpa using hw
    all_goals
      intro _ w hw
      have hw : w ∈ ([] : List Word) := hw
      cases hw

/-- The created panel before START, its job accepted or not. -/
theorem small_inv : Inv small where
  build := Config.vectorBuild_admissible
  mem := rfl
  fb := by decide +kernel
  busy := rfl
  cause := by decide
  jobs := by simp [small, panel, blank, State.afterReset]
  running := fun _ => rfl
  notHalted := fun _ => rfl
  intEn := rfl
  valid := rfl
  geometry := by decide +kernel
  row := by decide +kernel
  plane := by decide +kernel
  desc := rfl
  shamt := by decide +kernel
  freeCh := by decide +kernel
  freeSm := by decide +kernel
  roster := fun _ => ⟨by decide, by decide, by decide +kernel, by decide +kernel⟩
  configured := fun _ => ⟨by decide +kernel, by decide +kernel, by decide +kernel, by decide +kernel⟩
  runs := ⟨⟨by decide +kernel, by decide +kernel⟩, ⟨by decide +kernel, by decide +kernel⟩,
    ⟨by decide +kernel, by decide +kernel⟩, ⟨by decide +kernel, by decide +kernel⟩⟩
  pixelRead := by simp only [PixelRead]; decide +kernel
  depth := by decide +kernel
  path := by
    rw [if_neg (by decide)]
    exact ⟨rfl, rfl, rfl, rfl, rfl, rfl, rfl, rfl, rfl, rfl⟩

/-- A source that SRC_ADMIT admits whole. -/
theorem witness_FullFrameIngestFillsFrame : ∀ s, s = sourced small 0x1000 24 → Inv s ∧ s.status.created = true ∧
    s.status.busy = false ∧ s.srcLen.toNat = s.width * s.height * 3 ∧ s.srcAddr.toNat + s.srcLen.toNat ≤ 2 ^ 32 ∧
    ∀ a, s.srcAddr.toNat ≤ a → a < s.srcAddr.toNat + s.srcLen.toNat → admits s.build a = true := by
  rintro s rfl
  refine ⟨?_, rfl, rfl, by decide +kernel, by decide +kernel, ?_⟩
  · exact small_inv.frame rfl rfl small_inv.mem small_inv.fb rfl small_inv.cause small_inv.jobs rfl rfl rfl
      small_inv.shamt rfl rfl rfl rfl rfl rfl rfl rfl rfl rfl rfl
  · intro a _ ha
    have ha : a < 0x1000 + 24 := ha
    show (decide (a < 2 ^ 32) && ([(0, 0xFFFFFFFF)] : List (Nat × Nat)).any
      fun range => decide (range.1 ≤ a) && decide (a ≤ range.2)) = true
    simp only [List.any_cons, List.any_nil, Bool.or_false, Bool.and_eq_true, decide_eq_true_eq]
    omega

/-- The operation of each position is the next input, and the step takes it. -/
theorem witness_StepKeepsInvariant (p : ScanPosition) :
    Inv { standing p with input := [.op (encode p.operation)] } ∧
    ∃ t, step { standing p with input := [.op (encode p.operation)] } = .next t :=
  ⟨(standing_inv p).withInput _, by cases p <;> exact ⟨_, rfl⟩⟩

theorem witness_ScanPathNeverFails (p : ScanPosition) :
    Inv { standing p with input := [.op (encode p.operation)] } ∧ (standing p).cause ≠ .internal :=
  ⟨(standing_inv p).withInput _, by cases p <;> decide⟩

theorem witness_ScanPathIsAtOnePosition (p : ScanPosition) :
    (Inv (standing p) ∧ (standing p).status.running = true) ∧ At .eventPending (standing .eventPending) ∧
    Inv small ∧ small.status.running = false ∧ ∃ t, exec .start small = .next t ∧ t.status.running = true :=
  ⟨⟨standing_inv p, by cases p <;> rfl⟩, standing_at _, small_inv, rfl, _, rfl, by decide +kernel⟩

theorem witness_ScanPathMovesInOrder (p : ScanPosition) : Inv (standing p) ∧ (standing p).status.running = true ∧
    At p (standing p) ∧ p.operation.wellFormed = true ∧ ∃ t, exec p.operation (standing p) = .next t :=
  ⟨standing_inv p, by cases p <;> rfl, standing_at p, by cases p <;> rfl, by cases p <;> exact ⟨_, rfl⟩⟩

theorem witness_RunningScanNeverDeadlocks (p : ScanPosition) :
    Inv (standing p) ∧ (standing p).status.running = true ∧ At p (standing p) :=
  ⟨standing_inv p, by cases p <;> rfl, standing_at p⟩

/-- The fields of the P2 panel that keep its agents' steps from stopping the machine, whatever its logs hold. -/
structure Rolling (s : State) : Prop where
  cfg : s.cfg = ⟨2, 4⟩
  pixel : ∃ i m a, s.chPixel = ⟨.fb i, true, .dtx, false, 4, m, a, some .filler, .dtxSpace, false⟩ ∧ i + m ≤ 8
  filler : ∃ m a, s.chFiller = ⟨.zero, false, .dtx, false, 8, m, a, some .row, .dtxSpace, false⟩
  row : ∃ m a, s.chRow = ⟨.desc, false, .rtx, false, 1, m, a, none, .rtxSpace, false⟩
  oedone : ∃ m a, s.chOedone = ⟨.rrx, false, .sink, false, 1, m, a, none, .rrxData, true⟩
  job : s.pj = []

theorem Rolling.congr {s t : State} (h : Rolling s) (hc : t.cfg = s.cfg) (h1 : t.chPixel = s.chPixel)
    (h2 : t.chFiller = s.chFiller) (h3 : t.chRow = s.chRow) (h4 : t.chOedone = s.chOedone) (hj : t.pj = s.pj) :
    Rolling t :=
  ⟨hc ▸ h.cfg, h1 ▸ h.pixel, h2 ▸ h.filler, h3 ▸ h.row, h4 ▸ h.oedone, hj ▸ h.job⟩

/-- A transfer goes on and keeps them. -/
theorem Rolling.transfer {s : State} (h : Rolling s) (c : ChanId) : ∃ t, transfer c s = .next t ∧ Rolling t := by
  obtain ⟨i, m, a, hp, hi⟩ := h.pixel
  obtain ⟨m2, a2, hf⟩ := h.filler
  obtain ⟨m3, a3, hr⟩ := h.row
  obtain ⟨m4, a4, ho⟩ := h.oedone
  have hj := h.job
  have hc := h.cfg
  have hw : s.fbWords = 8 := by simp [State.fbWords, State.width, State.height, hc]
  by_cases en : transferEnabled c s = true
  · have en' := en
    simp only [transferEnabled, Bool.and_eq_true, decide_eq_true_eq] at en'
    have hraise : Rolling (raiseFault .internal s) := h.congr rfl rfl rfl rfl rfl rfl
    cases c
    case pixel =>
      have hm : 0 < m := by simpa [chan, hp] using en'.1.2
      have hlt : i < 8 := by omega
      by_cases h1 : m - 1 = 0 <;> cases a2 <;>
        simp [Machine.transfer, en, takeSource, putWord, advanceChannel, movedOne, advanceRead, followChain, endRun,
          trigger, settle, setChan, chan, hp, hf, hw, hlt, h1, hraise] <;>
        exact ⟨hc, ⟨_, _, _, rfl, by omega⟩, ⟨_, _, rfl⟩, ⟨_, _, hr⟩, ⟨_, _, ho⟩, hj⟩
    case filler =>
      by_cases h1 : m2 - 1 = 0 <;> cases a3 <;>
        simp [Machine.transfer, en, takeSource, putWord, advanceChannel, movedOne, advanceRead, followChain, endRun,
          trigger, settle, setChan, chan, hf, hr, h1, hraise] <;>
        exact ⟨hc, ⟨_, _, _, hp, hi⟩, ⟨_, _, rfl⟩, ⟨_, _, rfl⟩, ⟨_, _, ho⟩, hj⟩
    case row =>
      by_cases h1 : m3 - 1 = 0 <;>
        simp [Machine.transfer, en, takeSource, putWord, advanceChannel, movedOne, advanceRead, followChain, endRun,
          settle, setChan, chan, hr, h1] <;>
        exact ⟨hc, ⟨_, _, _, hp, hi⟩, ⟨_, _, hf⟩, ⟨_, _, rfl⟩, ⟨_, _, ho⟩, hj⟩
    case oedone =>
      obtain ⟨v, rest, hx⟩ : ∃ v rest, s.rrx = v :: rest := by
        have := en'.2
        simp only [chan, ho, paceHolds, decide_eq_true_eq] at this
        exact List.exists_cons_of_length_pos this
      by_cases h1 : m4 - 1 = 0 <;>
        simp [Machine.transfer, en, takeSource, putWord, advanceChannel, movedOne, advanceRead, followChain, endRun,
          settle, setChan, setIntPend, chan, ho, hx, h1] <;>
        exact ⟨hc, ⟨_, _, _, hp, hi⟩, ⟨_, _, hf⟩, ⟨_, _, hr⟩, ⟨_, _, rfl⟩, hj⟩
  · exact ⟨s, by simp [Machine.transfer, en], h⟩

/-- None of the agents' steps stops the machine there. -/
theorem Rolling.exec {s : State} (h : Rolling s) : ∀ i ∈ agentSteps, ∃ t, exec i s = .next t ∧ Rolling t := by
  have hseq : ∃ t, execSeqStep s = .next t ∧ Rolling t := by
    obtain ⟨t, ht⟩ : ∃ t, execSeqStep s = .next t := by unfold execSeqStep; split <;> exact ⟨_, rfl⟩
    refine ⟨t, ht, ?_⟩
    rcases execSeqStep_next ht with ⟨_, rfl⟩ | ⟨_, _, _, rfl⟩ | ⟨_, _, rfl⟩
    · exact h
    · obtain ⟨i, m, a, hp, _⟩ := h.pixel
      obtain ⟨m3, a3, hr⟩ := h.row
      obtain ⟨m4, a4, ho⟩ := h.oedone
      have hrow : (nextScan s).row.toNat ≤ 1 := by
        have hc := h.cfg
        simp only [nextScan, scanNext, State.half, State.height, hc]
        split <;> (try split) <;> simp at *
        omega
      refine ⟨h.cfg, ⟨_, 4, true, by rw [hp], ?_⟩, h.filler, ⟨_, _, by rw [hr]⟩,
        ⟨_, _, by rw [ho]⟩, h.job⟩
      have hw : s.width = 2 := by simp [State.width, h.cfg]
      rw [hw]
      omega
    · exact h.congr rfl rfl rfl rfl rfl rfl
  have hpop : ∃ t, execSerDataPop s = .next t ∧ Rolling t := by
    unfold execSerDataPop
    split
    · exact ⟨_, rfl, h⟩
    · exact ⟨_, rfl, h.congr rfl rfl rfl rfl rfl rfl⟩
  have htake : ∃ t, execSerRowTake s = .next t ∧ Rolling t := by
    unfold execSerRowTake
    split
    · exact ⟨_, rfl, h.congr rfl rfl rfl rfl rfl rfl⟩
    · exact ⟨_, rfl, h⟩
    · exact ⟨_, rfl, h⟩
  have hdone : ∃ t, execSerRowDone s = .next t ∧ Rolling t := by
    unfold execSerRowDone
    split
    · exact ⟨_, rfl, h⟩
    · split
      · exact ⟨_, rfl, h.congr rfl rfl rfl rfl rfl rfl⟩
      · exact ⟨_, rfl, h⟩
  simp only [agentSteps, List.mem_cons, List.not_mem_nil, or_false, forall_eq_or_imp, forall_eq]
  exact ⟨⟨s, by simp [Machine.exec, execPackWrite, packStep, packEnabled, h.job], h⟩, h.transfer .pixel,
    h.transfer .filler, h.transfer .row, h.transfer .oedone, hseq, hpop, htake, hdone⟩

/-- The agents' steps in turn, over and over. -/
def roundRobin (k : Nat) : Instr := agentSteps[k % 9]'(Nat.mod_lt k (by decide))

/-- The P2 panel under them. -/
def rolled : Nat → State
  | 0 => standing .eventPending
  | k + 1 => (after (exec (roundRobin k) { rolled k with input := [] }) id).getD (rolled k)

theorem rolled_rolling : ∀ k, Rolling (rolled k)
  | 0 => ⟨rfl, ⟨0, 0, false, rfl, by decide⟩, ⟨0, false, rfl⟩, ⟨0, false, rfl⟩, ⟨0, false, rfl⟩, rfl⟩
  | k + 1 => by
    obtain ⟨t, ht, hr⟩ := (show Rolling { rolled k with input := [] } from
      (rolled_rolling k).congr rfl rfl rfl rfl rfl rfl).exec (roundRobin k) (List.getElem_mem _)
    simp only [rolled, ht, after, Option.getD, id]
    exact hr

theorem roundRobin_decodes : ∀ i ∈ agentSteps, decode (encode i) = .ok i := by decide

/-- Every step takes its turn every nine steps, from a running state. -/
theorem witness_FairScanRunsForEver : Inv (rolled 0) ∧ (rolled 0).status.running = true ∧
    FairRun (fun k => .op (encode (roundRobin k))) rolled ∧ 1 < (rolled 0).half := by
  refine ⟨standing_inv .eventPending, rfl, ⟨fun k => ?_, by simp, fun i hi n _ => ?_⟩, by decide +kernel⟩
  · have hd := roundRobin_decodes (roundRobin k) (List.getElem_mem _)
    obtain ⟨t, ht, _⟩ := (show Rolling { rolled k with input := [] } from
      (rolled_rolling k).congr rfl rfl rfl rfl rfl rfl).exec (roundRobin k) (List.getElem_mem _)
    simp only [step, runNext, runInput, runEncoded, hd, rolled, ht, after, Option.getD, id]
  · obtain ⟨j, hj, rfl⟩ := List.getElem_of_mem hi
    have hj9 : j < 9 := hj
    refine ⟨9 * n + j, by omega, _, rfl, ?_⟩
    have hm : (9 * n + j) % 9 = j := by omega
    have : roundRobin (9 * n + j) = agentSteps[j] := by
      simp only [roundRobin, hm]
      rfl
    rw [this]
    exact roundRobin_decodes _ hi

/-- At CH_ROW's transfer, in the middle of CH_PIXEL's run, and with two filler words still queued. -/
theorem witness_DescriptorMatchesRowSent : Inv (standing .rowSend) ∧ (standing .rowSend).status.running = true ∧
    At .rowSend (standing .rowSend) ∧ Inv (standing .pixelRun) ∧ (standing .pixelRun).status.running = true ∧
    At .pixelRun (standing .pixelRun) ∧ (0 : Word) ∈ (standing .rowSend).dtx :=
  ⟨standing_inv _, rfl, standing_at _, standing_inv _, rfl, standing_at _, List.mem_cons_self⟩

theorem witness_StepKeepsLanesPaired :
    Inv { standing .pixelRun with input := [.op (.event8 0x20 0)] } ∧
    LanesPaired { standing .pixelRun with input := [.op (.event8 0x20 0)] } ∧
    ∃ t, step { standing .pixelRun with input := [.op (.event8 0x20 0)] } = .next t :=
  ⟨(standing_inv _).withInput _, rfl, _, rfl⟩

theorem witness_StepKeepsShiftInStep :
    Inv { standing .eventPending with input := [.op (.event8 0x30 0)] } ∧
    ShiftInStep { standing .eventPending with input := [.op (.event8 0x30 0)] } ∧
    ∃ t, step { standing .eventPending with input := [.op (.event8 0x30 0)] } = .next t ∧ t.shamt = 2 :=
  ⟨(standing_inv _).withInput _, rfl, _, rfl, rfl⟩

theorem witness_OnlySequencerWritesScanState : Inv (standing .eventPending) ∧
    (standing .eventPending).status.running = true ∧
    (Instr.xferPixel.agent ≠ .sequencer ∧ ∃ t, exec .xferPixel (standing .eventPending) = .next t) ∧
    Instr.seqStep.agent = .sequencer ∧ ∃ t, exec .seqStep (standing .eventPending) = .next t :=
  ⟨standing_inv _, rfl, ⟨by decide, _, rfl⟩, rfl, _, rfl⟩

/-- A running block that has recorded a fault, and a halted one. -/
theorem witness_StickyFlagsStaySet :
    (∀ s, s = { raiseFault .badReg (standing .eventPending) with input := [.op (.event8 0x30 0)] } →
      (∃ t, step s = .next t) ∧ (∀ rest, s.input ≠ .reset :: rest) ∧ s.status.created = true ∧
      s.status.running = true ∧ s.status.fault = true ∧ s.status.intEn = true) ∧
    (∃ t, step { halted with input := [.op (.cmd32 1)] } = .next t) ∧ halted.status.halted = true := by
  refine ⟨?_, ⟨_, rfl⟩, rfl⟩
  rintro s rfl
  exact ⟨⟨_, rfl⟩, by intro rest; simp, rfl, rfl, rfl, rfl⟩

theorem witness_OnlySeqStepClearsPendingEvent :
    (∃ t, step { standing .eventPending with input := [.op (.event8 0x30 0)] } = .next t ∧ t.status.intPend = false) ∧
    (∃ t, step { standing .eventPending with input := [.reset] } = .next t ∧ t.status.intPend = false) ∧
    (standing .eventPending).status.intPend = true :=
  ⟨⟨_, rfl, by decide +kernel⟩, ⟨_, rfl, rfl⟩, rfl⟩

theorem witness_OnlyPackerWritesFrameBuffer : Inv (standing .tokenQueued) ∧
    (standing .tokenQueued).status.created = true ∧
    (∃ t, exec .xferOedone (standing .tokenQueued) = .next t) ∧ ∃ t, exec .xferRow (standing .tokenQueued) = .next t :=
  ⟨standing_inv _, rfl, ⟨_, rfl⟩, _, rfl⟩

theorem witness_ConstantsStayConstant :
    (∃ t, exec .packWrite (pending .rgb) = .next t) ∧ (pending .rgb).status.created = true := ⟨⟨_, rfl⟩, rfl⟩

end Sys2Proof.Tests
end

section
/-! The register window's unmapped offsets, and what a bus access that reaches nothing does (spec/20_memory.md R43,
spec/44_driver_control.md R114, R115). -/

namespace Sys2Proof.Machine

/-! ### Offsets that reach nothing -/

/-- The last register, PARAM, is at 0x034 (spec/10_state.md R17). -/
theorem regAt_lt {o : Nat} {r : Reg} (h : regAt o = some r) : o < 0x038 := by
  unfold regAt at h
  split at h
  case h_15 => cases h
  all_goals decide

theorem regAt_eq_none {o : Nat} (h : 0x038 ≤ o) : regAt o = none :=
  Option.eq_none_iff_forall_ne_some.mpr fun _ hr => absurd (regAt_lt hr) (Nat.not_lt.mpr h)

theorem targetAt_of_misaligned {o : Nat} {s : State} (h : o % 4 ≠ 0) : targetAt o s = none := if_neg h

/-- Past the registers only the FB window is mapped. -/
theorem targetAt_of_outside_window {o : Nat} {s : State} (hreg : 0x038 ≤ o)
    (hwin : ¬ (0x1000 ≤ o ∧ (o - 0x1000) / 4 < s.fbWords)) : targetAt o s = none := by
  simp only [targetAt, regAt_eq_none hreg, if_neg hwin, ite_self]

/-- R43's illegal accesses reach nothing. -/
theorem accessTarget_eq_none {size : Width} {o : Word} {s : State}
    (h : size ≠ .bits32 ∨ o.toNat % 4 ≠ 0 ∨
      (0x038 ≤ o.toNat ∧ o.toNat < 0x1000) ∨ 0x1000 + 4 * s.fbWords ≤ o.toNat) :
    accessTarget size o s = none := by
  unfold accessTarget
  split
  case isFalse => rfl
  case isTrue hsize =>
    obtain hne | hmis | ⟨hlo, hgap⟩ | hend := h
    · exact absurd hsize hne
    · exact targetAt_of_misaligned hmis
    · exact targetAt_of_outside_window hlo (by omega)
    · exact targetAt_of_outside_window (by omega) (by omega)

/-! ### Accesses that reach nothing -/

theorem exec_busWr_of_no_target {size : Width} {o v : Word} {s : State} (h : accessTarget size o s = none) :
    exec (.busWr size o v) s = .next (raiseFault .badReg s) := by
  simp only [exec, execBusWr, busWrite, h]

theorem exec_busRd_of_no_target {size : Width} {o : Word} {s : State} (h : accessTarget size o s = none) :
    exec (.busRd size o) s = .next { raiseFault .badReg s with rdata := 0 } := by
  simp only [exec, execBusRd, busRead, h]

/-! ### The obligation -/

/-- Settles O9: R43's illegal accesses reach nothing, and an access that reaches nothing records BAD_REG only. -/
theorem illegalAccessFaultsBadReg : Obligations.IllegalAccessFaultsBadReg := by
  intro s size o v hillegal
  have hnone : accessTarget size o s = none := accessTarget_eq_none hillegal
  exact ⟨exec_busWr_of_no_target hnone, exec_busRd_of_no_target hnone⟩

end Sys2Proof.Machine
end

section
/-! The two data words of the scan path: what their fields read back (spec/30_encoding.md R63, R65, R66;
spec/40_gamma_ingest.md R74; spec/43_scan_stepper.md R103). -/

namespace Sys2Proof

/-! ### Fields read back -/

/-- A field that fits the word reads back as the value placed there. -/
theorem placeField_extractLsb'_same {n pos : Nat} (v : BitVec n) (h : pos + n ≤ 32) :
    (placeField pos v).extractLsb' pos n = v := by
  apply BitVec.eq_of_getLsbD_eq
  intro i hi
  have hword : pos + i < 32 := by omega
  simp [hi, hword]

/-- A field placed beside the bits read leaves them 0. -/
theorem placeField_extractLsb'_disjoint {n pos start len : Nat} (v : BitVec n)
    (h : start + len ≤ pos ∨ pos + n ≤ start) : (placeField pos v).extractLsb' start len = 0#len := by
  apply BitVec.eq_of_getLsbD_eq
  intro i hi
  obtain hbelow | habove := h
  · have hpos : ¬ pos ≤ start + i := by omega
    simp [hpos]
  · have hbit : v.getLsbD (start + i - pos) = false := BitVec.getLsbD_of_ge _ _ (by omega)
    simp [hbit]

namespace Machine

/-! ### The descriptor -/

/-- The pulse width of a valid plane is at most 6 << 9 = 3072 (R65). -/
theorem pulseWidth_le {plane : Nat} (h : plane < 10) : 6 <<< plane ≤ 3072 := by
  rw [Nat.shiftLeft_eq]
  have : 2 ^ plane ≤ 2 ^ 9 := Nat.pow_le_pow_right (by decide) (by omega)
  omega

/-- The word placed at PW_POS holds the pulse width itself: no bit leaves it. -/
theorem pulseWidth_toNat {plane : Nat} (h : plane < 10) :
    (BitVec.ofNat 32 Config.pwBase <<< plane).toNat = 6 <<< plane := by
  rw [BitVec.toNat_shiftLeft, BitVec.toNat_ofNat]
  exact Nat.mod_eq_of_lt (Nat.lt_of_le_of_lt (pulseWidth_le h) (by decide))

/-- A descriptor as a number (R103): the pulse width stands above the five row bits. -/
theorem descOf_toNat (row : BitVec 5) {plane : BitVec 4} (h : plane.toNat < 10) :
    (descOf row plane).toNat = row.toNat + (6 <<< plane.toNat) * 2 ^ 5 := by
  have hrow : (placeField 0 row).toNat = row.toNat := placeField_zero_toNat (by decide) row
  have hle := pulseWidth_le h
  rw [descOf, or_placeField_toNat, hrow, pulseWidth_toNat h]
  · rw [hrow]
    exact row.isLt
  · rw [pulseWidth_toNat h]
    exact Nat.lt_of_le_of_lt (Nat.mul_le_mul_right _ hle) (by decide)

theorem descRow_descOf (row : BitVec 5) {plane : BitVec 4} (h : plane.toNat < 10) :
    descRow (descOf row plane) = row := by
  apply BitVec.eq_of_toNat_eq
  rw [descRow, BitVec.extractLsb'_toNat, descOf_toNat row h, Nat.shiftRight_zero, Nat.add_mul_mod_self_right]
  exact Nat.mod_eq_of_lt row.isLt

theorem descPw_descOf (row : BitVec 5) {plane : BitVec 4} (h : plane.toNat < 10) :
    (descPw (descOf row plane)).toNat = 6 <<< plane.toNat := by
  have hle := pulseWidth_le h
  have hrow := row.isLt
  rw [descPw, BitVec.extractLsb'_toNat, descOf_toNat row h, Nat.shiftRight_eq_div_pow]
  omega

/-- Settles O41: below plane 10 the pulse width fits its field, so the descriptor is the sum of its two parts. -/
theorem descriptorDecodesBack : Obligations.DescriptorDecodesBack := by
  refine ⟨fun d => ⟨rfl, rfl⟩, fun row plane h => ⟨?_, descRow_descOf row h, descPw_descOf row h⟩⟩
  rw [descOf_toNat row h, Nat.shiftLeft_eq _ 5]

/-! ### The packed word -/

/-- Any bits of a packed word are those bits of its three fields, together. -/
theorem pack_extractLsb' (b : Build) (red green blue : Byte) (start len : Nat) :
    (pack b red green blue).extractLsb' start len =
      (placeField Config.offB (gamma b blue)).extractLsb' start len |||
      (placeField Config.offG (gamma b green)).extractLsb' start len |||
      (placeField Config.offR (gamma b red)).extractLsb' start len := by
  simp only [pack, BitVec.extractLsb'_or]

/-- Settles O30: the three ten-bit fields stand side by side below bit 30, so each range read is one field's own place or
disjoint from it. -/
theorem packedWordFields : Obligations.PackedWordFields := by
  intro b red green blue
  refine ⟨?red, ?green, ?blue, ?top⟩
  all_goals
    simp (disch := decide) only [pack_extractLsb', placeField_extractLsb'_same, placeField_extractLsb'_disjoint,
      BitVec.zero_or, BitVec.or_zero, BitVec.ofNat_eq_ofNat, gamma]

end Machine
end Sys2Proof
end

section
/-! The frame-buffer layout: fbindex and its inverse (spec/40_gamma_ingest.md R75, R76). -/

namespace Sys2Proof.Machine

/-! ### The two halves -/

/-- Row y is a line of the top half, or one of the bottom half. -/
theorem row_top_or_bottom (half y : Nat) : y < half ∨ ∃ line, y = half + line :=
  (Nat.lt_or_ge y half).imp_right Nat.exists_eq_add_of_le

theorem fbIndex_top {w half x y : Nat} (h : y < half) : fbIndex w half x y = 2 * (y * w + x) :=
  if_pos h

theorem fbIndex_bottom {w half x line : Nat} :
    fbIndex w half x (half + line) = 2 * (line * w + x) + 1 := by
  rw [fbIndex, if_neg (Nat.not_lt.mpr (Nat.le_add_right _ _)), Nat.add_sub_cancel_left]

/-- The place of column x in line `line` of a half lies in the half's w * half places. -/
theorem linePlace_lt {w half x line : Nat} (hx : x < w) (hline : line < half) : line * w + x < w * half :=
  calc line * w + x < line * w + w := Nat.add_lt_add_left hx _
    _ = (line + 1) * w := (Nat.succ_mul line w).symm
    _ ≤ half * w := Nat.mul_le_mul_right w hline
    _ = w * half := Nat.mul_comm half w

theorem fbIndex_lt {w half x y : Nat} (hx : x < w) (hy : y < 2 * half) :
    fbIndex w half x y < w * (2 * half) := by
  rw [Nat.mul_left_comm]
  obtain htop | ⟨line, rfl⟩ := row_top_or_bottom half y
  · have := linePlace_lt hx htop
    rw [fbIndex_top htop]
    omega
  · have := linePlace_lt (line := line) hx (by omega : line < half)
    rw [fbIndex_bottom]
    omega

/-! ### The inverse -/

/-- The pixel (x, y) that FB word i holds: i's parity chooses the half, i / 2 is the place in it. -/
def fbPixel (w half i : Nat) : Nat × Nat :=
  (i / 2 % w, if i % 2 = 0 then i / 2 / w else half + i / 2 / w)

theorem fbPixel_even (w half k : Nat) : fbPixel w half (2 * k) = (k % w, k / w) := by
  simp [fbPixel]

theorem fbPixel_odd (w half k : Nat) : fbPixel w half (2 * k + 1) = (k % w, half + k / w) := by
  have hdiv : (2 * k + 1) / 2 = k := by omega
  simp [fbPixel, hdiv, Nat.add_mod]

/-- A place of a half gives back its line and its column. -/
theorem linePlace_divMod {w x : Nat} (line : Nat) (hx : x < w) :
    (line * w + x) / w = line ∧ (line * w + x) % w = x :=
  (Nat.div_mod_unique (Nat.zero_lt_of_lt hx)).mpr ⟨by rw [Nat.mul_comm, Nat.add_comm], hx⟩

theorem fbPixel_fbIndex {w x : Nat} (half y : Nat) (hx : x < w) :
    fbPixel w half (fbIndex w half x y) = (x, y) := by
  obtain htop | ⟨line, rfl⟩ := row_top_or_bottom half y
  · obtain ⟨hdiv, hmod⟩ := linePlace_divMod y hx
    rw [fbIndex_top htop, fbPixel_even, hdiv, hmod]
  · obtain ⟨hdiv, hmod⟩ := linePlace_divMod line hx
    rw [fbIndex_bottom, fbPixel_odd, hdiv, hmod]

/-- Every index below W x H is the index of a pixel: an even one of the top half, an odd one of the bottom half. -/
theorem exists_fbIndex_eq {w half i : Nat} (hw : 0 < w) (hi : i < w * (2 * half)) :
    ∃ x y, x < w ∧ y < 2 * half ∧ fbIndex w half x y = i := by
  rw [Nat.mul_left_comm] at hi
  obtain ⟨k, rfl | rfl⟩ := Nat.even_or_odd' i
  all_goals
    have hcol : k % w < w := Nat.mod_lt k hw
    have hline : k / w < half := Nat.div_lt_of_lt_mul (by omega)
  · exact ⟨k % w, k / w, hcol, by omega, by rw [fbIndex_top hline, Nat.div_add_mod']⟩
  · exact ⟨k % w, half + k / w, hcol, by omega, by rw [fbIndex_bottom, Nat.div_add_mod']⟩

/-! ### The obligation -/

/-- Settles O25: each half fills the indices of one parity, and `fbPixel` takes an index back to its pixel, so two pixels
never share one. -/
theorem fbIndexIsBijection : Obligations.FbIndexIsBijection := by
  intro w half hw
  refine ⟨fun _ _ hx hy => fbIndex_lt hx hy, ?injective, fun _ hi => exists_fbIndex_eq hw hi⟩
  case injective =>
    intro x y x' y' hx _ hx' _ heq
    have hpixel : (x, y) = (x', y') := by rw [← fbPixel_fbIndex half y hx, heq, fbPixel_fbIndex half y' hx']
    exact Prod.mk.inj hpixel

end Sys2Proof.Machine
end

section
/-! The data serializer's pop and the colour bits of what it logs (spec/41_scan_program.md R87). -/

namespace Sys2Proof.Machine

/-- The pop is logged under `nextLane`, the lane read off the count before it. -/
theorem exec_serDataPop_of_dtx_cons {s : State} {w : Word} {rest : List Word} (h : s.dtx = w :: rest) :
    exec .serDataPop s =
      .next { s with dtx := rest, ds := s.ds ++ [⟨w, s.shamt, nextLane s⟩], popped := s.popped + 1 } := by
  simp only [exec, execSerDataPop, h]

/-- Settles O43: `nextLane` is the parity of the pops before this one, and the colour bits are read at the three field
offsets raised by the shift, whatever the lane. -/
theorem serDataPopLogsWord : Obligations.SerDataPopLogsWord := by
  intro s w rest hdtx
  refine ⟨?pop, ?bits⟩
  case pop => rw [exec_serDataPop_of_dtx_cons hdtx, nextLane]
  case bits => exact fun _ => rfl

end Sys2Proof.Machine
end

section
/-! The scan cycle: the sequencer's steps of a run count through the positions (spec/43_scan_stepper.md R104, R106,
R107). -/

namespace Sys2Proof.Machine

/-! ### The cycle's positions in order -/

/-- Inside a sweep only ROW moves (R104). -/
theorem scanNext_of_row_lt {half row plane : Nat} (h : row + 1 < half) :
    scanNext half (row, plane) = (row + 1, plane) := if_neg (Nat.not_le.mpr h)

/-- The step that ends a sweep starts the next plane's, after the last plane's the cycle (R104). -/
theorem scanNext_of_last_row {half row plane : Nat} (h : half ≤ row + 1) (hplane : plane < 10) :
    scanNext half (row, plane) = (0, (plane + 1) % 10) := by
  rw [scanNext, if_pos h]
  obtain rfl | hmore : plane = 9 ∨ plane + 1 < 10 := by omega
  · rfl
  · rw [if_neg (Nat.not_le.mpr hmore), Nat.mod_eq_of_lt hmore]

/-- (ROW, PLANE) after k steps from (0, 0): ROW counts the steps within a sweep, PLANE the sweeps. -/
def cyclePos (half k : Nat) : Nat × Nat := (k % half, k / half % 10)

/-- The scan advance is a count of one. -/
theorem scanNext_cyclePos {half : Nat} (k : Nat) (hhalf : 0 < half) :
    scanNext half (cyclePos half k) = cyclePos half (k + 1) := by
  have hk : k % half + half * (k / half) = k := Nat.mod_add_div k half
  obtain hin | hend := Nat.lt_or_ge (k % half + 1) half
  · obtain ⟨hdiv, hmod⟩ : (k + 1) / half = k / half ∧ (k + 1) % half = k % half + 1 :=
      (Nat.div_mod_unique hhalf).mpr ⟨by omega, hin⟩
    rw [cyclePos, scanNext_of_row_lt hin, cyclePos, hdiv, hmod]
  · have hrow : k % half < half := Nat.mod_lt k hhalf
    obtain ⟨hdiv, hmod⟩ : (k + 1) / half = k / half + 1 ∧ (k + 1) % half = 0 :=
      (Nat.div_mod_unique hhalf).mpr ⟨by rw [Nat.mul_succ]; omega, hhalf⟩
    rw [cyclePos, scanNext_of_last_row hend (Nat.mod_lt _ (by decide)), cyclePos, hdiv, hmod, Nat.mod_add_mod]

/-- Whole sweeps from (0, 0). -/
theorem cyclePos_mul {half : Nat} (p : Nat) (hhalf : 0 < half) : cyclePos half (half * p) = (0, p % 10) := by
  rw [cyclePos, Nat.mul_mod_right, Nat.mul_div_cancel_left p hhalf]

/-- Within the first cycle the planes do not wrap. -/
theorem cyclePos_of_lt {half k : Nat} (h : k < half * 10) : cyclePos half k = (k % half, k / half) := by
  rw [cyclePos, Nat.mod_eq_of_lt (Nat.div_lt_of_lt_mul h)]

/-! ### A run of the sequencer's steps -/

/-- SCANPOS as (ROW, PLANE). -/
def ScanPos.indices (p : ScanPos) : Nat × Nat := (p.row.toNat, p.plane.toNat)

theorem ScanPos.eq_of_indices {p q : ScanPos} (h : p.indices = q.indices) : p = q := by
  obtain ⟨hrow, hplane⟩ := Prod.mk.inj h
  cases p
  cases q
  rw [ScanPos.mk.injEq]
  exact ⟨BitVec.eq_of_toNat_eq hrow, BitVec.eq_of_toNat_eq hplane⟩

/-- On a legal panel no index outgrows its field, so SCANPOS advances as the wide form does. -/
theorem nextScan_indices {s : State} {k : Nat} (hpos : 0 < s.half) (hle : s.half ≤ 32)
    (h : s.scan.indices = cyclePos s.half k) : (nextScan s).indices = cyclePos s.half (k + 1) := by
  have hnext : scanNext s.half (s.scan.row.toNat, s.scan.plane.toNat) = cyclePos s.half (k + 1) := by
    rw [← scanNext_cyclePos k hpos, ← h, ScanPos.indices]
  have hrow : (k + 1) % s.half < s.half := Nat.mod_lt _ hpos
  simp only [nextScan, hnext, ScanPos.indices, cyclePos, BitVec.toNat_ofNat]
  rw [Prod.mk.injEq]
  omega

section Run
variable {half : Nat} {f : Nat → State}

/-- Each step of a run is the scan advance: no channel is active, so the handler goes through. -/
theorem ScanRun.scan_succ (hrun : ScanRun half f) (k : Nat) : (f (k + 1)).scan = nextScan (f k) := by
  obtain ⟨henabled, hoedone, hpixel⟩ := hrun.enabled k
  obtain ⟨t, hstep, hscan⟩ := hrun.steps k
  rw [hscan]
  obtain ⟨hpass, _⟩ | ⟨_, _, _, rfl⟩ | ⟨_, hactive, _⟩ := execSeqStep_next hstep
  · simp [henabled] at hpass
  · rfl
  · simp [hoedone, hpixel] at hactive

/-- A run that starts at a position of the cycle counts on from there. -/
theorem ScanRun.indices_add (hrun : ScanRun half f) (hpos : 0 < half) (hle : half ≤ 32) {start : Nat}
    (h0 : (f 0).scan.indices = cyclePos half start) (k : Nat) :
    (f k).scan.indices = cyclePos half (start + k) := by
  induction k with
  | zero => exact h0
  | succ k ih =>
    have hhalf := hrun.rows k
    subst hhalf
    rw [hrun.scan_succ k]
    exact nextScan_indices hpos hle ih

end Run

/-! ### The obligations -/

/-- Settles O39: ROW = 0 in plane p is the position after HALF x p steps of the cycle, so HALF steps later the count is
HALF x (p + 1). -/
theorem rowSweepAdvancesPlane : Obligations.RowSweepAdvancesPlane := by
  intro half f hpos hle hrun hrow hplane
  have hstart : (f 0).scan.indices = cyclePos half (half * (f 0).scan.plane.toNat) := by
    rw [cyclePos_mul _ hpos, ScanPos.indices, hrow, Nat.mod_eq_of_lt hplane]
    rfl
  have hend := hrun.indices_add hpos hle hstart half
  rw [← Nat.mul_succ, cyclePos_mul _ hpos] at hend
  obtain ⟨hrow', hplane'⟩ := Prod.mk.inj hend
  exact ⟨BitVec.eq_of_toNat_eq hrow', hplane'⟩

/-- Settles O40: k steps from (0, 0) lead to the k-th position of the cycle; below HALF x 10 its two indices are the
remainder and the quotient by HALF, which determine k. -/
theorem scanCycleVisitsEveryPosition : Obligations.ScanCycleVisitsEveryPosition := by
  intro half f hpos hle hrun hstart
  have hcount (k : Nat) : (f k).scan.indices = cyclePos half k := by
    have h0 : (f 0).scan.indices = cyclePos half 0 := by simp [hstart, ScanPos.indices, cyclePos]
    simpa using hrun.indices_add hpos hle h0 k
  have hfirst (k : Nat) (hk : k < half * 10) :
      (f k).scan.row.toNat = k % half ∧ (f k).scan.plane.toNat = k / half :=
    Prod.mk.inj ((hcount k).trans (cyclePos_of_lt hk))
  have honce (r p : Nat) (hr : r < half) (k : Nat) (hk : k < half * 10) :
      (f k).scan.row.toNat = r ∧ (f k).scan.plane.toNat = p ↔ k = half * p + r := by
    obtain ⟨hrow, hplane⟩ := hfirst k hk
    rw [hrow, hplane, and_comm, Nat.div_mod_unique hpos, Nat.add_comm, eq_comm]
    exact and_iff_left hr
  refine ⟨hfirst, ?noReturn, fun r p hr _ => honce r p hr, ?closes⟩
  case noReturn =>
    intro k hk0 hk hreturn
    have hzero : k = half * 0 + 0 := (honce 0 0 hpos k hk).mp (by simp [hreturn])
    omega
  case closes =>
    exact ScanPos.eq_of_indices ((hcount _).trans (cyclePos_mul 10 hpos))

end Sys2Proof.Machine
end

section
/-! The scan path's position: no state stands at two, and START and the sequencer's step enter the first
(spec/43_scan_stepper.md R109). -/

namespace Sys2Proof.Machine

variable {s t : State} {p q : ScanPosition}

/-! ### One position -/

/-- Each position has a mark of its own: an active channel, a queued word, the busy serializer or the pending event. -/
theorem At.unique (hp : At p s) (hq : At q s) : q = p := by
  cases p with
  | pixelRun => simpa using hq.pixel.symm.trans hp.pixel
  | fillerRun => simpa using hq.filler.symm.trans hp.filler
  | rowSend => simpa using hq.row.symm.trans hp.row
  | rowQueued => simpa using hq.rtx.symm.trans hp.rtx
  | rowShown => simpa using hq.phase.symm.trans hp.phase
  | tokenQueued => simpa using hq.rrx.symm.trans hp.rrx
  | eventPending => simpa using hq.pending.symm.trans hp.pending

theorem At.rtx_le_one (h : At p s) : s.rtx.length ≤ 1 := by
  rw [h.rtx]
  split <;> decide

theorem At.rrx_le_one (h : At p s) : s.rrx.length ≤ 1 := by
  rw [h.rrx]
  split <;> decide

/-- CH_OEDONE waits for its token exactly until the event it raises is pending. -/
theorem At.oedone_active_iff (h : At p s) : s.chOedone.active = true ↔ s.status.intPend = false := by
  rw [h.oedone, h.pending, decide_eq_true_eq, decide_eq_false_iff_not]

/-! ### Entering the first position -/

/-- A command is ignored while HALTED, or it runs (R114, R124). -/
theorem acceptCommand_cases (c : Command) (s : State) :
    acceptCommand c s = s ∨ acceptCommand c s = runCommand c s :=
  ite_eq_or_eq _ _ _

/-- On a quiet block the START that sets RUNNING leaves the path at the first position. -/
theorem At.of_start (hquiet : Quiet s) (hidle : s.status.running = false) (h : exec .start s = .next t)
    (hrun : t.status.running = true) : At .pixelRun t := by
  obtain rfl : acceptCommand .start s = t := Host.Outcome.next.inj h
  obtain hignored | hruns := acceptCommand_cases .start s
  · simp [hignored, hidle] at hrun
  · rw [hruns, runCommand] at hrun ⊢
    obtain ⟨c, hfault, _⟩ | ⟨_, _, _, _, hstart⟩ := runStart_cases s
    · simp [hfault, hidle] at hrun
    · rw [hstart]
      exact ⟨rfl, hquiet.filler, hquiet.row, rfl, hquiet.pending, congrArg List.length hquiet.rtx,
        congrArg List.length hquiet.rrx, congrArg RowPhase.isBusy hquiet.phase⟩

/-- A running block's event is enabled (R116, R127), so it only has to be pending. -/
theorem Inv.eventEnabled_eq (h : Inv s) (hrun : s.status.running = true) : eventEnabled s = s.status.intPend := by
  simp [eventEnabled, h.intEn, h.running hrun, hrun]

/-- The sequencer's step at the last position re-arms the two channels that are idle there. -/
theorem At.seqStep (h : At .eventPending s) (henabled : eventEnabled s = true) :
    ∃ t, exec .seqStep s = .next t ∧ At .pixelRun t := by
  have hstep : exec .seqStep s = .next (settle (seqBody s) s) := by
    simp only [exec, execSeqStep, henabled, if_true]
  refine ⟨_, hstep, ?_⟩
  rw [seqBody, rearm_of_idle (by simpa using h.oedone) (by simpa using h.pixel), advanceScan_eq]
  exact ⟨rfl, h.filler, h.row, rfl, rfl, h.rtx, h.rrx, h.phase⟩

/-- Settles O49: the invariant gives a position, its marks make it the only one, and the two operations that trigger
CH_PIXEL lead to the first. -/
theorem scanPathIsAtOnePosition : Obligations.ScanPathIsAtOnePosition := by
  intro s hinv
  refine ⟨?onePosition, ?start, ?seqStep⟩
  case onePosition =>
    intro hrun
    obtain ⟨p, hp, _⟩ := hinv.position hrun
    exact ⟨⟨p, hp, fun q hq => hp.unique hq⟩, hp.rtx_le_one, hp.rrx_le_one, hp.oedone_active_iff⟩
  case start =>
    exact fun t hidle hstart hrun => At.of_start (hinv.quiet hidle) hidle hstart hrun
  case seqStep =>
    exact fun hrun hp => hp.seqStep ((hinv.eventEnabled_eq hrun).trans hp.pending)

end Sys2Proof.Machine
end

section
/-! Who writes the scan state: while the block runs no agent but the sequencer writes SCANPOS, DESC or SHIFT, and the
sequencer writes no pixel (spec/43_scan_stepper.md R113). -/

namespace Sys2Proof.Machine

open Host

variable {s t : State}

/-! ### What the serializers' steps can change -/

theorem execSerDataPop_frame (h : execSerDataPop s = .next t) :
    t = { s with dtx := t.dtx, ds := t.ds, popped := t.popped } := by
  unfold execSerDataPop at h
  split at h <;> cases h <;> rfl

theorem execSerRowTake_frame (h : execSerRowTake s = .next t) :
    t = { s with rtx := t.rtx, rs := t.rs, phase := t.phase } := by
  unfold execSerRowTake at h
  split at h <;> cases h <;> rfl

theorem execSerRowDone_frame (h : execSerRowDone s = .next t) :
    t = { s with rrx := t.rrx, draws := t.draws, phase := t.phase } := by
  unfold execSerRowDone at h
  split at h
  · cases h; rfl
  · split at h <;> cases h <;> rfl

/-! ### What the bus operations can do -/

/-- A bus write is a CMD write, sets an argument register, or faults BAD_REG (R114). -/
theorem busWrite_cases (size : Width) (offset v : Word) (s : State) :
    busWrite size offset v s = writeCmd v s ∨ (∃ r, writeArgument r v s = some (busWrite size offset v s)) ∨
      busWrite size offset v s = raiseFault .badReg s := by
  unfold busWrite
  split
  next => exact .inl rfl
  next r _ _ =>
    cases hw : writeArgument r v s with
    | none => exact .inr (.inr rfl)
    | some t => exact .inr (.inl ⟨r, hw⟩)
  next => exact .inr (.inr rfl)
  next => exact .inr (.inr rfl)

theorem writeArgument_frame {r : Reg} {v : Word} (h : writeArgument r v s = some t) :
    t = { s with geom := t.geom, srcAddr := t.srcAddr, srcLen := t.srcLen, areaP1 := t.areaP1, areaP2 := t.areaP2 } := by
  cases r <;> cases h <;> rfl

/-- A bus read leaves the block as it is, or faults BAD_REG (R115). -/
theorem busRead_state (size : Width) (offset : Word) (s : State) :
    (busRead size offset s).2 = s ∨ (busRead size offset s).2 = raiseFault .badReg s := by
  unfold busRead
  split
  next => exact .inl rfl
  next => exact .inl rfl
  next => exact .inr rfl

/-! ### What a command can do to a running block -/

/-- CREATE and START fault, so a command only records a fault or queues a job. -/
theorem runCommand_of_running (hcreated : s.status.created = true) (hrun : s.status.running = true) (c : Command) :
    (∃ k, runCommand c s = raiseFault k s) ∨
      ∃ job, runCommand c s = { s with status := { s.status with busy := true }, pj := job } := by
  cases c with
  | create => exact .inl ⟨.reinit, by simp [runCommand, runCreate, hcreated]⟩
  | start => exact .inl ⟨.restart, by simp [runCommand, runStart, hcreated, hrun]⟩
  | update =>
    exact (settle_fullFrame .rgb s).imp (fun ⟨k, hk, _⟩ => ⟨k, hk⟩) fun ⟨_, _, _, _, hjob⟩ => ⟨_, hjob⟩
  | updateBgr =>
    exact (settle_fullFrame .bgr s).imp (fun ⟨k, hk, _⟩ => ⟨k, hk⟩) fun ⟨_, _, _, _, hjob⟩ => ⟨_, hjob⟩
  | updateArea =>
    exact (settle_partialArea s).imp (fun ⟨k, hk, _⟩ => ⟨k, hk⟩) fun ⟨_, _, _, _, _, _, _, _, hjob⟩ => ⟨_, hjob⟩

/-! ### The scan state -/

/-- The three registers R113 gives to the sequencer are those of `s`. -/
structure SameScanState (s t : State) : Prop where
  scan : t.scan = s.scan
  desc : t.desc = s.desc
  shamt : t.shamt = s.shamt

theorem SameScanState.refl (s : State) : SameScanState s s := ⟨rfl, rfl, rfl⟩

theorem raiseFault_sameScanState (k : Cause) (s : State) : SameScanState s (raiseFault k s) := ⟨rfl, rfl, rfl⟩

theorem transfer_sameScanState {c : ChanId} (h : transfer c s = .next t) : SameScanState s t := by
  obtain rfl | ⟨ht, _⟩ := transfer_frame h
  · exact raiseFault_sameScanState _ s
  · rw [ht]
    exact ⟨rfl, rfl, rfl⟩

theorem execPackWrite_sameScanState (h : execPackWrite s = .next t) : SameScanState s t := by
  obtain ⟨_, rfl⟩ | ⟨e, rest, _, _, _, rfl⟩ := execPackWrite_next h
  · exact .refl t
  · exact ⟨rfl, rfl, rfl⟩

theorem busRead_sameScanState (size : Width) (offset : Word) (s : State) :
    SameScanState s (busRead size offset s).2 := by
  obtain h | h := busRead_state size offset s <;> rw [h]
  · exact .refl s
  · exact raiseFault_sameScanState _ s

theorem rejectCommand_sameScanState (s : State) : SameScanState s (rejectCommand s) := by
  unfold rejectCommand
  split
  · exact .refl s
  · exact raiseFault_sameScanState _ s

section Running
variable (hcreated : s.status.created = true) (hrun : s.status.running = true)
include hcreated hrun

theorem acceptCommand_sameScanState (c : Command) : SameScanState s (acceptCommand c s) := by
  obtain h | h := acceptCommand_cases c s <;> rw [h]
  · exact .refl s
  · obtain ⟨k, hk⟩ | ⟨job, hjob⟩ := runCommand_of_running hcreated hrun c
    · exact hk ▸ raiseFault_sameScanState k s
    · rw [hjob]
      exact ⟨rfl, rfl, rfl⟩

theorem writeCmd_sameScanState (v : Word) : SameScanState s (writeCmd v s) := by
  unfold writeCmd
  split
  · exact acceptCommand_sameScanState hcreated hrun _
  · exact rejectCommand_sameScanState s

theorem busWrite_sameScanState (size : Width) (offset v : Word) : SameScanState s (busWrite size offset v s) := by
  obtain hcmd | ⟨r, hreg⟩ | hfault := busWrite_cases size offset v s
  · exact hcmd ▸ writeCmd_sameScanState hcreated hrun v
  · rw [writeArgument_frame hreg]
    exact ⟨rfl, rfl, rfl⟩
  · exact hfault ▸ raiseFault_sameScanState _ s

/-- Every operation but the sequencer's two leaves a running block's scan state alone. -/
theorem exec_sameScanState {i : Instr} (hagent : i.agent ≠ .sequencer) (h : exec i s = .next t) :
    SameScanState s t := by
  have command (c : Command) (hc : (.next (acceptCommand c s) : Outcome State Fault Refusal) = .next t) :
      SameScanState s t := Outcome.next.inj hc ▸ acceptCommand_sameScanState hcreated hrun c
  cases i with
  | create => exact command .create h
  | start => exact command .start h
  | update => exact command .update h
  | updateBgr => exact command .updateBgr h
  | updateArea => exact command .updateArea h
  | busWr size offset v =>
    cases h
    exact busWrite_sameScanState hcreated hrun size offset v
  | busRd size offset =>
    cases h
    obtain ⟨hscan, hdesc, hshamt⟩ := busRead_sameScanState size offset s
    exact ⟨hscan, hdesc, hshamt⟩
  | packWrite => exact execPackWrite_sameScanState h
  | xferPixel | xferFiller | xferRow | xferOedone => exact transfer_sameScanState h
  | seqStep | patchShift p => exact absurd rfl hagent
  | serDataPop =>
    rw [execSerDataPop_frame h]
    exact ⟨rfl, rfl, rfl⟩
  | serRowTake =>
    rw [execSerRowTake_frame h]
    exact ⟨rfl, rfl, rfl⟩
  | serRowDone =>
    rw [execSerRowDone_frame h]
    exact ⟨rfl, rfl, rfl⟩

end Running

/-! ### The sequencer's operations -/

theorem agent_eq_sequencer_iff (i : Instr) : i.agent = .sequencer ↔ i = .seqStep ∨ ∃ p, i = .patchShift p := by
  cases i <;> simp [Instr.agent]

/-- Neither SEQ_STEP nor PATCH_SHIFT writes the frame buffer. -/
theorem exec_sequencer_fb {i : Instr} (hagent : i.agent = .sequencer) (h : exec i s = .next t) :
    t.fb = s.fb ∧ t.fbEpoch = s.fbEpoch := by
  obtain rfl | ⟨p, rfl⟩ := (agent_eq_sequencer_iff i).mp hagent
  · obtain ⟨_, rfl⟩ | ⟨_, _, _, rfl⟩ | ⟨_, _, rfl⟩ := execSeqStep_next h <;> exact ⟨rfl, rfl⟩
  · obtain ⟨_, rfl⟩ | ⟨_, _, rfl⟩ := execPatchShift_next h <;> exact ⟨rfl, rfl⟩

/-- Settles O56: operation by operation, a running block's CREATE and START being faults. -/
theorem onlySequencerWritesScanState : Obligations.OnlySequencerWritesScanState := by
  intro s t i hinv hrun h
  refine ⟨fun hagent => ?_, fun hagent k => ?_⟩
  · obtain ⟨hscan, hdesc, hshamt⟩ := exec_sameScanState (hinv.running hrun) hrun hagent h
    exact ⟨hscan, hdesc, hshamt⟩
  · obtain ⟨hfb, hepoch⟩ := exec_sequencer_fb hagent h
    exact fbRead_congr hfb hepoch

end Sys2Proof.Machine
end

section
/-! What no step but a reset takes back: the sticky flags of STATUS and a recorded CAUSE. The pending event is taken back
by the sequencer's step as well (spec/10_state.md R18, spec/60_exceptions.md R123, R128). -/

namespace Sys2Proof.Machine

open Host

variable {s t u : State}

/-! ### Flags kept from one state to another -/

/-- From `s` to `t` no sticky flag is cleared and no recorded CAUSE is changed (R18, R123). -/
structure StickyKept (s t : State) : Prop where
  created : s.status.created = true → t.status.created = true
  running : s.status.running = true → t.status.running = true
  fault : s.status.fault = true → t.status.fault = true
  cause : s.status.fault = true → t.cause = s.cause
  halted : s.status.halted = true → t.status.halted = true
  intEn : s.status.intEn = true → t.status.intEn = true

/-- Nor is a pending event acknowledged (R128). -/
structure FlagsKept (s t : State) : Prop extends StickyKept s t where
  intPend : s.status.intPend = true → t.status.intPend = true

/-- BUSY, the one flag left, may change either way (R18). -/
theorem FlagsKept.of_status (hstatus : t.status = { s.status with busy := t.status.busy })
    (hcause : t.cause = s.cause) : FlagsKept s t := by
  refine ⟨⟨?_, ?_, ?_, fun _ => hcause, ?_, ?_⟩, ?_⟩ <;> (rw [hstatus]; exact id)

theorem FlagsKept.refl (s : State) : FlagsKept s s := .of_status rfl rfl

theorem StickyKept.trans (h : StickyKept s t) (h' : StickyKept t u) : StickyKept s u where
  created := h'.created ∘ h.created
  running := h'.running ∘ h.running
  fault := h'.fault ∘ h.fault
  cause hf := (h'.cause (h.fault hf)).trans (h.cause hf)
  halted := h'.halted ∘ h.halted
  intEn := h'.intEn ∘ h.intEn

theorem FlagsKept.trans (h : FlagsKept s t) (h' : FlagsKept t u) : FlagsKept s u :=
  ⟨h.toStickyKept.trans h'.toStickyKept, h'.intPend ∘ h.intPend⟩

/-- A fault after the first leaves CAUSE as it is (R122). -/
theorem raiseFault_flagsKept (c : Cause) (s : State) : FlagsKept s (raiseFault c s) :=
  ⟨⟨id, id, fun _ => rfl, fun hf => if_pos hf, id, id⟩, id⟩

/-! ### Commands -/

theorem runCreate_flagsKept (s : State) : FlagsKept s (runCreate s) := by
  obtain ⟨c, hfault, _⟩ | ⟨_, hresource⟩ | ⟨_, _, _, _, hcreated⟩ := runCreate_cases s
  · exact hfault ▸ raiseFault_flagsKept c s
  · have hhalt : FlagsKept s { s with status := { s.status with halted := true } } :=
      ⟨⟨id, id, id, fun _ => rfl, fun _ => rfl, id⟩, id⟩
    exact hresource ▸ hhalt.trans (raiseFault_flagsKept .resource _)
  · rw [hcreated]
    exact ⟨⟨fun _ => rfl, id, id, fun _ => rfl, id, fun _ => rfl⟩, id⟩

theorem runStart_flagsKept (s : State) : FlagsKept s (runStart s) := by
  obtain ⟨c, hfault, _⟩ | ⟨_, _, _, _, hstart⟩ := runStart_cases s
  · exact hfault ▸ raiseFault_flagsKept c s
  · rw [hstart]
    exact ⟨⟨id, fun _ => rfl, id, fun _ => rfl, id, id⟩, id⟩

theorem fullFrame_flagsKept (o : Order) (s : State) : FlagsKept s (settle (fullFrame o s) s) := by
  obtain ⟨c, hfault, _⟩ | ⟨_, _, _, _, hjob⟩ := settle_fullFrame o s
  · exact hfault ▸ raiseFault_flagsKept c s
  · rw [hjob]
    exact .of_status rfl rfl

theorem partialArea_flagsKept (s : State) : FlagsKept s (settle (partialArea s) s) := by
  obtain ⟨c, hfault, _⟩ | ⟨_, _, _, _, _, _, _, _, hjob⟩ := settle_partialArea s
  · exact hfault ▸ raiseFault_flagsKept c s
  · rw [hjob]
    exact .of_status rfl rfl

theorem runCommand_flagsKept (c : Command) (s : State) : FlagsKept s (runCommand c s) := by
  cases c with
  | create => exact runCreate_flagsKept s
  | start => exact runStart_flagsKept s
  | update => exact fullFrame_flagsKept .rgb s
  | updateBgr => exact fullFrame_flagsKept .bgr s
  | updateArea => exact partialArea_flagsKept s

theorem acceptCommand_flagsKept (c : Command) (s : State) : FlagsKept s (acceptCommand c s) := by
  obtain h | h := acceptCommand_cases c s <;> rw [h]
  · exact .refl s
  · exact runCommand_flagsKept c s

theorem rejectCommand_flagsKept (s : State) : FlagsKept s (rejectCommand s) := by
  unfold rejectCommand
  split
  · exact .refl s
  · exact raiseFault_flagsKept .badCmd s

/-! ### The bus -/

theorem writeCmd_flagsKept (v : Word) (s : State) : FlagsKept s (writeCmd v s) := by
  unfold writeCmd
  split
  · exact acceptCommand_flagsKept _ s
  · exact rejectCommand_flagsKept s

theorem busWrite_flagsKept (size : Width) (offset v : Word) (s : State) :
    FlagsKept s (busWrite size offset v s) := by
  obtain hcmd | ⟨r, hreg⟩ | hfault := busWrite_cases size offset v s
  · exact hcmd ▸ writeCmd_flagsKept v s
  · rw [writeArgument_frame hreg]
    exact .of_status rfl rfl
  · exact hfault ▸ raiseFault_flagsKept .badReg s

theorem busRead_flagsKept (size : Width) (offset : Word) (s : State) : FlagsKept s (busRead size offset s).2 := by
  obtain h | h := busRead_state size offset s <;> rw [h]
  · exact .refl s
  · exact raiseFault_flagsKept .badReg s

/-! ### The block's agents -/

/-- A transfer can only set INT_PEND (R97). -/
theorem transfer_flagsKept {c : ChanId} (h : transfer c s = .next t) : FlagsKept s t := by
  obtain rfl | ⟨ht, hpend⟩ := transfer_frame h
  · exact raiseFault_flagsKept .internal s
  · refine ⟨?_, hpend⟩
    rw [ht]
    exact ⟨id, id, id, fun _ => rfl, id, id⟩

theorem execPackWrite_flagsKept (h : execPackWrite s = .next t) : FlagsKept s t := by
  obtain ⟨_, rfl⟩ | ⟨e, rest, _, _, _, rfl⟩ := execPackWrite_next h <;> exact .of_status rfl rfl

theorem execPatchShift_flagsKept {p : BitVec 4} (h : execPatchShift p s = .next t) : FlagsKept s t := by
  obtain ⟨_, rfl⟩ | ⟨_, _, rfl⟩ := execPatchShift_next h <;> exact .of_status rfl rfl

/-- The handler clears INT_PEND and no other flag (R128). -/
theorem execSeqStep_stickyKept (h : execSeqStep s = .next t) : StickyKept s t := by
  obtain ⟨_, rfl⟩ | ⟨_, _, _, rfl⟩ | ⟨_, _, rfl⟩ := execSeqStep_next h
  · exact (FlagsKept.refl t).toStickyKept
  · exact ⟨id, id, id, fun _ => rfl, id, id⟩
  · exact (raiseFault_flagsKept .internal s).toStickyKept

/-- Every operation but SEQ_STEP keeps all six flags. -/
theorem exec_flagsKept {i : Instr} (hi : i ≠ .seqStep) (h : exec i s = .next t) : FlagsKept s t := by
  have command (c : Command) (hc : (.next (acceptCommand c s) : Outcome State Fault Refusal) = .next t) :
      FlagsKept s t := Outcome.next.inj hc ▸ acceptCommand_flagsKept c s
  cases i with
  | create => exact command .create h
  | start => exact command .start h
  | update => exact command .update h
  | updateBgr => exact command .updateBgr h
  | updateArea => exact command .updateArea h
  | busWr size offset v =>
    cases h
    exact busWrite_flagsKept size offset v s
  | busRd size offset =>
    cases h
    exact (busRead_flagsKept size offset s).trans (.of_status rfl rfl)
  | packWrite => exact execPackWrite_flagsKept h
  | xferPixel | xferFiller | xferRow | xferOedone => exact transfer_flagsKept h
  | seqStep => exact absurd rfl hi
  | patchShift p => exact execPatchShift_flagsKept h
  | serDataPop =>
    rw [execSerDataPop_frame h]
    exact .of_status rfl rfl
  | serRowTake =>
    rw [execSerRowTake_frame h]
    exact .of_status rfl rfl
  | serRowDone =>
    rw [execSerRowDone_frame h]
    exact .of_status rfl rfl

/-! ### One entry of the input list -/

/-- An operation's turn that goes on runs a decoded instruction, or rejects a command word (R58). -/
theorem runEncoded_next {e : Encoded} (h : runEncoded e s = .next t) :
    (∃ i, decode e = .ok i ∧ exec i s = .next t) ∨ t = rejectCommand s := by
  unfold runEncoded at h
  split at h
  case h_1 i hdecode => exact .inl ⟨i, hdecode, h⟩
  case h_2 => exact .inr (Outcome.next.inj h).symm
  all_goals cases h

/-- One entry keeps every flag, is a reset, or runs SEQ_STEP, which keeps the sticky ones. -/
theorem runInput_flagsKept_or {x : Input} (h : runInput x s = .next t) :
    FlagsKept s t ∨ x = .reset ∨ StickyKept s t ∧ ∃ e, x = .op e ∧ decode e = .ok .seqStep := by
  cases x with
  | op e =>
    obtain ⟨i, hdecode, hexec⟩ | rfl := runEncoded_next h
    · by_cases hi : i = .seqStep
      · subst hi
        exact .inr (.inr ⟨execSeqStep_stickyKept hexec, e, rfl, hdecode⟩)
      · exact .inl (exec_flagsKept hi hexec)
    · exact .inl (rejectCommand_flagsKept s)
  | store a v =>
    cases h
    exact .inl (.of_status rfl rfl)
  | pools channels slots =>
    cases h
    exact .inl (.of_status rfl rfl)
  | reset => exact .inr (.inl rfl)

/-- One step keeps every flag, is a reset, or runs SEQ_STEP, which keeps the sticky ones. -/
theorem step_flagsKept_or (h : step s = .next t) : FlagsKept s t ∨ (∃ rest, s.input = .reset :: rest) ∨
    StickyKept s t ∧ ∃ e rest, s.input = .op e :: rest ∧ decode e = .ok .seqStep := by
  unfold step runNext at h
  split at h
  next =>
    cases h
    exact .inl (.refl s)
  next x rest hinput =>
    have htake : FlagsKept s { s with input := rest } := .of_status rfl rfl
    obtain hkept | rfl | ⟨hsticky, e, rfl, hdecode⟩ := runInput_flagsKept_or h
    · exact .inl (htake.trans hkept)
    · exact .inr (.inl ⟨rest, hinput⟩)
    · exact .inr (.inr ⟨htake.toStickyKept.trans hsticky, e, rest, hinput, hdecode⟩)

/-! ### The obligations -/

/-- Settles O57: a step that is no reset keeps the sticky flags, whether or not it runs SEQ_STEP. -/
theorem stickyFlagsStaySet : Obligations.StickyFlagsStaySet := by
  intro s t h hreset
  have hkept : StickyKept s t := by
    obtain hkept | ⟨rest, hinput⟩ | ⟨hsticky, _⟩ := step_flagsKept_or h
    · exact hkept.toStickyKept
    · exact absurd hinput (hreset rest)
    · exact hsticky
  exact ⟨hkept.created, hkept.running, fun hf => ⟨hkept.fault hf, hkept.cause hf⟩, hkept.halted, hkept.intEn⟩

/-- Settles O58: a step that clears INT_PEND does not keep every flag, so it is a reset or runs SEQ_STEP. -/
theorem onlySeqStepClearsPendingEvent : Obligations.OnlySeqStepClearsPendingEvent := by
  intro s t h hpending hcleared
  obtain hkept | hreset | ⟨_, hseq⟩ := step_flagsKept_or h
  · exact absurd (hkept.intPend hpending) (by simp [hcleared])
  · exact .inl hreset
  · exact .inr hseq

end Sys2Proof.Machine
end

section
/-! The encodings: a bus header's fields read back, every word decodes to one operation at most, and what a CMD write of
each word does (spec/30_encoding.md R55 to R61; spec/44_driver_control.md R114; spec/60_exceptions.md R124). -/

namespace Sys2Proof

/-! ### Command words -/

/-- A command word is its OP and RES fields (R56). -/
theorem commandWord_toNat (w : Word) : w.toNat = (w.extractLsb' 0 4).toNat + 16 * (w.extractLsb' 4 28).toNat := by
  have hw := w.isLt
  simp only [BitVec.extractLsb'_toNat, Nat.shiftRight_eq_div_pow]
  omega

@[simp] theorem decodeCommand_encodeCommand (c : Command) : decodeCommand (encodeCommand c) = some c := by
  cases c <;> rfl

/-- The decoder takes the five command words and no other (R57, R58). -/
theorem eq_encodeCommand_of_decodeCommand {w : Word} {c : Command} (h : decodeCommand w = some c) :
    w = encodeCommand c := by
  apply BitVec.eq_of_toNat_eq
  rw [commandWord_toNat w]
  unfold decodeCommand at h
  split at h
  next hres =>
    rw [hres]
    split at h
    all_goals cases h
    all_goals
      rename_i hop
      rw [hop]
      rfl
  next => cases h

theorem encodeCommand_toNat (c : Command) : 1 ≤ (encodeCommand c).toNat ∧ (encodeCommand c).toNat ≤ 5 := by
  cases c <;> decide

theorem decodeCommand_reserved {w : Word} (h : w.toNat = 0 ∨ 6 ≤ w.toNat) : decodeCommand w = none := by
  refine Option.eq_none_iff_forall_ne_some.mpr fun c hc => ?_
  have hrange := encodeCommand_toNat c
  rw [← eq_encodeCommand_of_decodeCommand hc] at hrange
  omega

theorem encode_instr (c : Command) : encode c.instr = .cmd32 (encodeCommand c) := by
  cases c <;> rfl

theorem instr_wellFormed (c : Command) : c.instr.wellFormed = true := by
  cases c <;> rfl

/-! ### Bus headers -/

@[simp] theorem widthOfBits_bitsOfWidth (size : Width) : widthOfBits (bitsOfWidth size) = size := by
  cases size <;> rfl

@[simp] theorem bitsOfWidth_widthOfBits (b : BitVec 2) : bitsOfWidth (widthOfBits b) = b := by
  revert b
  decide

section
variable (write : Bool) (size : Width) (offset : BitVec 16)

theorem encodeBus_extractLsb' (start len : Nat) : (encodeBus write size offset).extractLsb' start len =
    (placeField 31 (BitVec.ofBool write)).extractLsb' start len |||
    (placeField 16 (bitsOfWidth size)).extractLsb' start len |||
    (placeField 0 offset).extractLsb' start len := by
  simp only [encodeBus, BitVec.extractLsb'_or]

theorem encodeBus_reserved : (encodeBus write size offset).extractLsb' 18 13 = 0 := by
  simp (disch := decide) only [encodeBus_extractLsb', placeField_extractLsb'_disjoint, BitVec.or_zero,
    BitVec.ofNat_eq_ofNat]

theorem encodeBus_size : (encodeBus write size offset).extractLsb' 16 2 = bitsOfWidth size := by
  simp (disch := decide) only [encodeBus_extractLsb', placeField_extractLsb'_disjoint, placeField_extractLsb'_same,
    BitVec.zero_or, BitVec.or_zero]

theorem encodeBus_offset : (encodeBus write size offset).extractLsb' 0 16 = offset := by
  simp (disch := decide) only [encodeBus_extractLsb', placeField_extractLsb'_disjoint, placeField_extractLsb'_same,
    BitVec.zero_or]

theorem encodeBus_dir : (encodeBus write size offset).getLsbD 31 = write := by
  simp [encodeBus]

end

/-- A header whose reserved bits are 0 is made of its three fields (R60). -/
theorem encodeBus_of_fields {header : Word} (h : header.extractLsb' 18 13 = 0) :
    encodeBus (header.getLsbD 31) (widthOfBits (header.extractLsb' 16 2)) (header.extractLsb' 0 16) = header := by
  apply BitVec.eq_of_getLsbD_eq
  intro i hi
  simp only [encodeBus, bitsOfWidth_widthOfBits, BitVec.getLsbD_or, placeField_getLsbD, bit_of_ofBool,
    BitVec.getLsbD_extractLsb', Nat.zero_add, Nat.sub_zero]
  obtain hoffset | hsize | hreserved | rfl : i < 16 ∨ (16 ≤ i ∧ i < 18) ∨ (18 ≤ i ∧ i < 31) ∨ i = 31 := by omega
  · simp [hoffset, show ¬ 31 ≤ i by omega, show ¬ 16 ≤ i by omega, hi]
  · simp [hsize, show ¬ 31 ≤ i by omega, show ¬ i < 16 by omega, show i - 16 < 2 by omega,
      show 16 + (i - 16) = i by omega, hi]
  · have hbit : header.getLsbD i = false := by
      have hb := congrArg (fun v => v.getLsbD (i - 18)) h
      simpa [BitVec.getLsbD_extractLsb', show i - 18 < 13 by omega, show 18 + (i - 18) = i by omega] using hb
    simp [hbit, show ¬ 31 ≤ i by omega, show ¬ i < 16 by omega, show ¬ i - 16 < 2 by omega]
  · simp

theorem decodeBus_encodeBus_write (size : Width) (offset value : Word) :
    decodeBus (encodeBus true size (offset.extractLsb' 0 16)) value (offset.extractLsb' 16 16) =
      .ok (.busWr size offset value) := by
  rw [decodeBus, if_pos (encodeBus_reserved ..), if_pos (encodeBus_dir ..), encodeBus_size, widthOfBits_bitsOfWidth,
    busOffset_of_halves (encodeBus_offset ..)]

theorem decodeBus_encodeBus_read (size : Width) (offset data : Word) :
    decodeBus (encodeBus false size (offset.extractLsb' 0 16)) data (offset.extractLsb' 16 16) =
      .ok (.busRd size offset) := by
  rw [decodeBus, if_pos (encodeBus_reserved ..), if_neg (by rw [encodeBus_dir]; decide), encodeBus_size,
    widthOfBits_bitsOfWidth, busOffset_of_halves (encodeBus_offset ..)]

/-- What a header decodes to is well formed and encodes to that header (R60). -/
theorem encode_of_decodeBus {header data : Word} {high : BitVec 16} {i : Instr}
    (h : decodeBus header data high = .ok i) : i.wellFormed = true ∧
      ∃ d', encode i = .bus header d' high ∧ (header.getLsbD 31 = true → d' = data) := by
  unfold decodeBus at h
  split at h
  next hreserved =>
    have hfields := encodeBus_of_fields hreserved
    split at h
    next hwrite =>
      cases h
      refine ⟨rfl, data, ?_, fun _ => rfl⟩
      rw [hwrite] at hfields
      rw [encode, busOffset_low, busOffset_high, hfields]
    next hread =>
      cases h
      refine ⟨rfl, 0, ?_, fun hwrite => absurd hwrite hread⟩
      rw [Bool.eq_false_iff.mpr hread] at hfields
      rw [encode, busOffset_low, busOffset_high, hfields]
  next => cases h

/-! ### Event codes -/

/-- What an event code decodes to is well formed and encodes to that code (R61, R86). -/
theorem encode_of_decodeEvent {code : Byte} {operand : BitVec 4} {i : Instr}
    (h : decodeEvent code operand = .ok i) : i.wellFormed = true ∧
      ∃ p', encode i = .event8 code p' ∧ (code = 0x31 → p' = operand) := by
  have hcode : code = BitVec.ofNat 8 code.toNat := by simp
  unfold decodeEvent at h
  split at h
  case h_11 => cases h
  case h_7 hk =>
    rw [hk] at hcode
    subst hcode
    split at h <;> cases h
    next hplane => exact ⟨decide_eq_true hplane, operand, rfl, fun _ => rfl⟩
  all_goals
    rename_i hk
    rw [hk] at hcode
    subst hcode
    cases h
    exact ⟨rfl, 0, rfl, fun hpatch => absurd hpatch (by decide)⟩

/-! ### The obligations on encodings -/

/-- Settles O1: a command's word and an event's code are read back by computation, a transaction's header field by
field. -/
theorem decodeOfEncodeIsIdentity : Obligations.DecodeOfEncodeIsIdentity := by
  intro i hwf
  cases i with
  | busWr size offset value => exact decodeBus_encodeBus_write size offset value
  | busRd size offset => exact decodeBus_encodeBus_read size offset 0
  | patchShift plane => exact if_pos (of_decide_eq_true hwf)
  | create | start | update | updateBgr | updateArea => rfl
  | packWrite | xferPixel | xferFiller | xferRow | xferOedone => rfl
  | seqStep | serDataPop | serRowTake | serRowDone => rfl

/-- Settles O2: form by form, the decoded operation determines the word. -/
theorem encodeOfDecodeIsIdentity : Obligations.EncodeOfDecodeIsIdentity := by
  intro e i h
  cases e with
  | cmd32 w =>
    simp only [decode] at h
    split at h
    next c hc =>
      cases h
      rw [eq_encodeCommand_of_decodeCommand hc]
      exact ⟨instr_wellFormed c, encode_instr c⟩
    next => cases h
  | bus header data high => exact encode_of_decodeBus h
  | event8 code operand => exact encode_of_decodeEvent h

/-- Settles O3: each of the ten words is decoded by computation. -/
theorem wordsOfTheSpecDecode : Obligations.WordsOfTheSpecDecode := by
  unfold Obligations.WordsOfTheSpecDecode
  decide

end Sys2Proof
end

section
/-! The register window as the host reads and writes it (spec/10_state.md R17 to R28, spec/44_driver_control.md R114,
R115). -/

namespace Sys2Proof.Machine

variable {s : State}

/-! ### What an access reaches -/

theorem accessTarget_reg {o : Word} {r : Reg} (halign : o.toNat % 4 = 0) (hr : regAt o.toNat = some r) :
    accessTarget .bits32 o s = some (.reg r) := by
  simp only [accessTarget, targetAt, halign, hr, if_true]

/-- Every frame-buffer word in use stands in the window (R17, R40). -/
theorem accessTarget_fbWord {i : Nat} (hheight : s.height ≤ 64) (hi : i < s.fbWords) :
    accessTarget .bits32 (BitVec.ofNat 32 (0x1000 + 4 * i)) s = some (.fbWord i) := by
  have halign : (0x1000 + 4 * i) % 4 = 0 := by omega
  have hindex : (0x1000 + 4 * i - 0x1000) / 4 = i := by omega
  have hwindow : 0x1000 ≤ 0x1000 + 4 * i ∧ i < s.fbWords := ⟨Nat.le_add_right _ _, hi⟩
  have hreg : regAt (0x1000 + 4 * i) = none := regAt_eq_none (by omega)
  simp only [accessTarget, targetAt, fbOffset_toNat hheight hi, halign, hreg, hindex, if_pos hwindow, if_true]

/-! ### Accesses of what is reached -/

theorem exec_busRd_of_reg {o : Word} {r : Reg} (h : accessTarget .bits32 o s = some (.reg r)) :
    exec (.busRd .bits32 o) s = .next { s with rdata := readReg r s } := by
  simp only [exec, execBusRd, busRead, h]

theorem exec_busRd_of_fbWord {o : Word} {i : Nat} (h : accessTarget .bits32 o s = some (.fbWord i)) :
    exec (.busRd .bits32 o) s = .next { s with rdata := fbRead i s } := by
  simp only [exec, execBusRd, busRead, h]

theorem exec_busWr_of_cmd {o v : Word} (h : accessTarget .bits32 o s = some (.reg .cmd)) :
    exec (.busWr .bits32 o v) s = .next (writeCmd v s) := by
  simp only [exec, execBusWr, busWrite, h]

/-- A write of any register but CMD sets an argument register or faults (R114). -/
theorem exec_busWr_of_reg {o v : Word} {r : Reg} (h : accessTarget .bits32 o s = some (.reg r)) (hr : r ≠ .cmd) :
    exec (.busWr .bits32 o v) s = .next ((writeArgument r v s).getD (raiseFault .badReg s)) := by
  simp only [exec, execBusWr, busWrite, h]

theorem exec_busWr_of_fbWord {o v : Word} {i : Nat} (h : accessTarget .bits32 o s = some (.fbWord i)) :
    exec (.busWr .bits32 o v) s = .next (raiseFault .badReg s) := by
  simp only [exec, execBusWr, busWrite, h]

/-! ### CMD -/

/-- CMD stands at offset 0 (R17). -/
theorem exec_busWr_cmd (v : Word) (s : State) : exec (.busWr .bits32 0x000 v) s = .next (writeCmd v s) :=
  exec_busWr_of_cmd (accessTarget_reg rfl rfl)

theorem exec_instr (c : Command) (s : State) : exec c.instr s = .next (acceptCommand c s) := by
  cases c <;> rfl

/-- A listed command word is a CMD write of it (spec/30_encoding.md R56, R58). -/
theorem runEncoded_cmd32 (w : Word) (s : State) : runEncoded (.cmd32 w) s = .next (writeCmd w s) := by
  simp only [runEncoded, decode, writeCmd]
  cases decodeCommand w with
  | none => rfl
  | some c => exact exec_instr c s

theorem writeCmd_of_halted (h : s.status.halted = true) (v : Word) : writeCmd v s = s := by
  unfold writeCmd
  split
  · exact if_pos h
  · exact if_pos h

/-- Settles O4: such a word decodes to no command, and by both routes it is a CMD write. -/
theorem reservedCommandFaultsBadCmd : Obligations.ReservedCommandFaultsBadCmd := by
  intro s w hreserved hhalted
  have hwrite : writeCmd w s = raiseFault .badCmd s := by
    simp only [writeCmd, decodeCommand_reserved hreserved, rejectCommand, hhalted, Bool.false_eq_true, if_false]
  rw [exec_busWr_cmd, runEncoded_cmd32, hwrite]
  exact ⟨rfl, rfl⟩

/-- Settles O15: the decoder reads the command's word back. -/
theorem busWriteToCmdRunsCommand : Obligations.BusWriteToCmdRunsCommand := by
  intro s c
  rw [exec_busWr_cmd, exec_instr, writeCmd, decodeCommand_encodeCommand]

/-- Settles O16: each of them is a CMD write, which a halted block ignores. -/
theorem haltedBlockIgnoresCommands : Obligations.HaltedBlockIgnoresCommands := by
  intro s hhalted
  have hcommand (c : Command) : exec c.instr s = .next s := by rw [exec_instr, acceptCommand, if_pos hhalted]
  refine ⟨fun v => ?_, ?_⟩
  · rw [exec_busWr_cmd, runEncoded_cmd32, writeCmd_of_halted hhalted]
    exact ⟨rfl, rfl⟩
  · simp only [List.forall_mem_cons]
    exact ⟨hcommand .create, hcommand .start, hcommand .update, hcommand .updateBgr, hcommand .updateArea, nofun⟩

/-! ### Register values -/

/-- Two fields side by side from bit 0, as a number. -/
theorem placeField_or_eq_ofNat {n m pos : Nat} (a : BitVec n) (b : BitVec m) (hn : n ≤ pos) (hm : pos + m ≤ 32) :
    placeField 0 a ||| placeField pos b = BitVec.ofNat 32 (a.toNat + 2 ^ pos * b.toNat) := by
  have hlow : a.toNat < 2 ^ pos := Nat.lt_of_lt_of_le a.isLt (Nat.pow_le_pow_right (by decide) hn)
  have hsum : a.toNat + 2 ^ pos * b.toNat < 2 ^ (pos + m) := by
    rw [Nat.pow_add]
    calc a.toNat + 2 ^ pos * b.toNat < 2 ^ pos + 2 ^ pos * b.toNat := Nat.add_lt_add_right hlow _
      _ = 2 ^ pos * (b.toNat + 1) := by rw [Nat.mul_succ, Nat.add_comm]
      _ ≤ 2 ^ pos * 2 ^ m := Nat.mul_le_mul_left _ b.isLt
  have hword : a.toNat + 2 ^ pos * b.toNat < 2 ^ 32 :=
    Nat.lt_of_lt_of_le hsum (Nat.pow_le_pow_right (by decide) hm)
  have ha : (placeField 0 a).toNat = a.toNat := placeField_zero_toNat (by omega) a
  apply BitVec.eq_of_toNat_eq
  rw [or_placeField_toNat _ _ _ (by rwa [ha]) (by rw [Nat.mul_comm]; omega), ha, BitVec.toNat_ofNat,
    Nat.mod_eq_of_lt hword, Nat.mul_comm]

/-- One field at bit 0, as a number. -/
theorem placeField_zero_eq_ofNat {n : Nat} (a : BitVec n) (hn : n ≤ 32) : placeField 0 a = BitVec.ofNat 32 a.toNat := by
  apply BitVec.eq_of_toNat_eq
  have hword : a.toNat < 2 ^ 32 := Nat.lt_of_lt_of_le a.isLt (Nat.pow_le_pow_right (by decide) hn)
  rw [placeField_zero_toNat hn, BitVec.toNat_ofNat, Nat.mod_eq_of_lt hword]

theorem paramWord_eq (b : Build) : paramWord b = BitVec.ofNat 32 (b.fillerWords % 2 ^ 16 + 2 ^ 16 * 10) := by
  rw [paramWord, placeField_or_eq_ofNat _ _ (by decide) (by decide), BitVec.toNat_ofNat]
  rfl

/-- STATUS's flags stand in bits 0 to 6 in order (R18). -/
theorem Status.word_getLsbD (f : Status) (i : Nat) : f.word.getLsbD i =
    (if i = 0 then f.created else if i = 1 then f.running else if i = 2 then f.busy else if i = 3 then f.fault
      else if i = 4 then f.halted else if i = 5 then f.intEn else if i = 6 then f.intPend else false) := by
  obtain hflag | hreserved : i < 7 ∨ 7 ≤ i := Nat.lt_or_ge i 7
  · interval_cases i <;> simp [Status.word]
  · have hbit (n : Nat) (b : Bool) (hn : n < 7) : (placeField n (BitVec.ofBool b)).getLsbD i = false := by
      simp [show ¬ i - n = 0 by omega]
    simp (disch := omega) only [Status.word, BitVec.getLsbD_or, hbit, Bool.or_false, if_neg]

theorem Status.word_lt (f : Status) : f.word.toNat < 2 ^ 7 := by
  refine Nat.lt_pow_two_of_testBit _ fun i hi => ?_
  change f.word.getLsbD i = false
  simp (disch := omega) only [Status.word_getLsbD, if_neg]

/-- ROSTER's fields read back (R27). -/
theorem Roster.word_fields (r : Roster) :
    r.word.extractLsb' 0 4 = r.chPixel ∧ r.word.extractLsb' 4 4 = r.chFiller ∧ r.word.extractLsb' 8 4 = r.chRow ∧
    r.word.extractLsb' 12 4 = r.chOedone ∧ r.word.extractLsb' 16 2 = r.smData ∧ r.word.extractLsb' 18 2 = r.smRow ∧
    r.word.extractLsb' 20 11 = 0 ∧ r.word.getLsbD 31 = r.valid := by
  refine ⟨?_, ?_, ?_, ?_, ?_, ?_, ?_, by simp [Roster.word]⟩
  all_goals
    simp (disch := decide) only [Roster.word, BitVec.extractLsb'_or, placeField_extractLsb'_same,
      placeField_extractLsb'_disjoint, BitVec.zero_or, BitVec.or_zero, BitVec.ofNat_eq_ofNat]

/-! ### The obligations on reads and writes -/

/-- Settles O11: offset by offset the register is reached, and its word is made of the fields named. -/
theorem busReadReturnsRegister : Obligations.BusReadReturnsRegister := by
  intro s
  have read {o : Word} {r : Reg} {v : Word} (halign : o.toNat % 4 = 0) (hr : regAt o.toNat = some r)
      (hv : readReg r s = v) : exec (.busRd .bits32 o) s = .next { s with rdata := v } :=
    hv ▸ exec_busRd_of_reg (accessTarget_reg halign hr)
  refine ⟨read rfl rfl rfl, ⟨s.status.word, read rfl rfl rfl, ?status⟩, read rfl rfl ?cause, read rfl rfl rfl,
    read rfl rfl rfl, read rfl rfl rfl, read rfl rfl rfl, read rfl rfl rfl, read rfl rfl ?cfg, read rfl rfl ?scan,
    read rfl rfl rfl, read rfl rfl ?shift, ⟨s.roster.word, read rfl rfl rfl, s.roster.word_fields⟩,
    read rfl rfl (paramWord_eq s.build)⟩
  case status =>
    have flag := s.status.word_getLsbD
    exact ⟨flag 0, flag 1, flag 2, flag 3, flag 4, flag 5, flag 6, s.status.word_lt⟩
  case cause => exact placeField_zero_eq_ofNat _ (by decide)
  case cfg => exact placeField_or_eq_ofNat _ _ (by decide) (by decide)
  case scan => exact placeField_or_eq_ofNat _ _ (by decide) (by decide)
  case shift => exact placeField_zero_eq_ofNat _ (by decide)

/-- Settles O12: the offset reaches that word. -/
theorem busReadReturnsFrameBufferWord : Obligations.BusReadReturnsFrameBufferWord :=
  fun _ _ hheight hi => exec_busRd_of_fbWord (accessTarget_fbWord hheight hi)

/-- Settles O13: the five offsets reach the argument registers, which a write sets. -/
theorem busWriteSetsArgumentRegister : Obligations.BusWriteSetsArgumentRegister := by
  intro s v
  refine ⟨?geom, ?srcAddr, ?srcLen, ?areaP1, ?areaP2⟩
  case geom => exact exec_busWr_of_reg (r := .geom) (accessTarget_reg rfl rfl) (by decide)
  case srcAddr => exact exec_busWr_of_reg (r := .srcAddr) (accessTarget_reg rfl rfl) (by decide)
  case srcLen => exact exec_busWr_of_reg (r := .srcLen) (accessTarget_reg rfl rfl) (by decide)
  case areaP1 => exact exec_busWr_of_reg (r := .areaP1) (accessTarget_reg rfl rfl) (by decide)
  case areaP2 => exact exec_busWr_of_reg (r := .areaP2) (accessTarget_reg rfl rfl) (by decide)

/-- Settles O14: the eight offsets reach registers that a write does not set, the others frame-buffer words. -/
theorem busWriteOfReadOnlyFaults : Obligations.BusWriteOfReadOnlyFaults := by
  intro s v
  have readOnly (r : Reg) {o : Nat} (halign : (BitVec.ofNat 32 o).toNat % 4 = 0)
      (hr : regAt (BitVec.ofNat 32 o).toNat = some r) (hcmd : r ≠ .cmd) (hw : writeArgument r v s = none) :
      exec (.busWr .bits32 (BitVec.ofNat 32 o) v) s = .next (raiseFault .badReg s) := by
    rw [exec_busWr_of_reg (accessTarget_reg halign hr) hcmd, hw, Option.getD_none]
  refine ⟨?_, fun hheight i hi => exec_busWr_of_fbWord (accessTarget_fbWord hheight hi)⟩
  simp only [List.forall_mem_cons]
  exact ⟨readOnly .status rfl rfl nofun rfl, readOnly .cause rfl rfl nofun rfl, readOnly .cfg rfl rfl nofun rfl,
    readOnly .scanpos rfl rfl nofun rfl, readOnly .desc rfl rfl nofun rfl, readOnly .shift rfl rfl nofun rfl,
    readOnly .roster rfl rfl nofun rfl, readOnly .param rfl rfl nofun rfl, nofun⟩

end Sys2Proof.Machine
end

section
/-! CREATE and START: what they claim and configure, and their faults in order (spec/44_driver_control.md R116 to R119,
spec/60_exceptions.md R125). -/

namespace Sys2Proof.Machine

variable {s : State}

/-- A command that reaches a block that is not halted runs (R114). -/
theorem exec_instr_of_not_halted (h : s.status.halted = false) (c : Command) :
    exec c.instr s = .next (runCommand c s) := by
  rw [exec_instr, acceptCommand, if_neg (by simp [h])]

/-! ### What CREATE claims -/

/-- A valid roster of channels below 16 holds what it was made of (spec/10_state.md R27). -/
theorem heldChannels_rosterOf (slots : List Nat) {channels : List Nat} (hlen : channels.length = 4)
    (hlt : ∀ c ∈ channels, c < 16) : heldChannels (rosterOf slots channels) = channels := by
  match channels, hlen with
  | [a, b, c, d], _ =>
    simp only [List.forall_mem_cons] at hlt
    obtain ⟨ha, hb, hc, hd, _⟩ := hlt
    simp (disch := omega) [heldChannels, rosterOf, Nat.mod_eq_of_lt]

theorem heldSlots_rosterOf (channels : List Nat) {slots : List Nat} (hlen : slots.length = 2)
    (hlt : ∀ c ∈ slots, c < 4) : heldSlots (rosterOf slots channels) = slots := by
  match slots, hlen with
  | [a, b], _ =>
    simp only [List.forall_mem_cons] at hlt
    obtain ⟨ha, hb, _⟩ := hlt
    simp (disch := omega) [heldSlots, rosterOf, Nat.mod_eq_of_lt]

/-- What a claim of the identifiers `held` from the pool `free` leaves as the pool `left` (R116). -/
structure Claimed (free held left : List Nat) : Prop where
  distinct : held.Nodup
  fromPool : ∀ c ∈ held, c ∈ free
  leftDistinct : left.Nodup
  mem_left : ∀ c, c ∈ left ↔ c ∈ free ∧ c ∉ held

theorem created_channels (hdistinct : s.freeCh.Nodup) (hlen : 4 ≤ s.freeCh.length) (hlt : ∀ c ∈ s.freeCh, c < 16) :
    Claimed s.freeCh (heldChannels (created s).roster) (created s).freeCh := by
  obtain ⟨hcount, hheld, hfrom, hleft, hmem⟩ := claim_spec 4 (s.draws + 2) s.freeCh hdistinct hlen
  have hroster : heldChannels (created s).roster = (claim 4 (s.draws + 2) s.freeCh).1 :=
    heldChannels_rosterOf _ hcount fun c hc => hlt c (hfrom c hc)
  rw [hroster]
  exact ⟨hheld, hfrom, hleft, hmem⟩

theorem created_slots (hdistinct : s.freeSm.Nodup) (hlen : 2 ≤ s.freeSm.length) (hlt : ∀ c ∈ s.freeSm, c < 4) :
    Claimed s.freeSm (heldSlots (created s).roster) (created s).freeSm := by
  obtain ⟨hcount, hheld, hfrom, hleft, hmem⟩ := claim_spec 2 s.draws s.freeSm hdistinct hlen
  have hroster : heldSlots (created s).roster = (claim 2 s.draws s.freeSm).1 :=
    heldSlots_rosterOf _ hcount fun c hc => hlt c (hfrom c hc)
  rw [hroster]
  exact ⟨hheld, hfrom, hleft, hmem⟩

/-- The two slots a valid roster holds are distinct exactly as identifiers are. -/
theorem smData_ne_smRow {r : Roster} (hvalid : r.valid = true) (h : (heldSlots r).Nodup) : r.smData ≠ r.smRow := by
  intro heq
  simp [heldSlots, hvalid, heq] at h

/-! ### CREATE -/

/-- R117's five conditions, negated. -/
theorem legalGeometry_eq_false_iff {capacity w h : Nat} : legalGeometry capacity w h = false ↔
    w = 0 ∨ h < 2 ∨ h % 2 ≠ 0 ∨ 64 < h ∨ capacity < w * h := by
  rw [← Bool.not_eq_true, legalGeometry]
  simp only [Bool.and_eq_true, decide_eq_true_eq]
  generalize w * h = area
  omega

/-- Settles O17: with the geometry legal and the pools large enough CREATE leaves `created`, whose roster is what it
claimed. -/
theorem createConfiguresBlock : Obligations.CreateConfiguresBlock := by
  intro s w h hw hh hhalted hcreated h1 h2 h3 h4 h5 hslots hchannels hsm hch hsm4 hch16
  have hlegal : legalGeometry s.build.fbCapacity (lowHalf s.geom) (highHalf s.geom) ≠ false := by
    rw [Ne, legalGeometry_eq_false_iff, lowHalf, highHalf, ← hw, ← hh]
    omega
  have hrun : runCreate s = created s := by
    rw [runCreate, if_neg (by simp [hcreated]), if_neg hlegal, if_neg (by omega)]
  have slots := created_slots hsm hslots hsm4
  have channels := created_channels hch hchannels hch16
  subst hw
  exact ⟨created s, hrun ▸ exec_instr_of_not_halted hhalted .create, rfl, fun _ => rfl, rfl,
    smData_ne_smRow rfl slots.distinct, slots.fromPool, slots.mem_left, channels.distinct, channels.fromPool,
    channels.mem_left⟩

/-- Settles O18: `runCreate` checks in R125's order. -/
theorem createFaultsInOrder : Obligations.CreateFaultsInOrder := by
  intro s w h hw hh hhalted
  have hillegal := legalGeometry_eq_false_iff (capacity := s.build.fbCapacity) (w := w) (h := h)
  obtain rfl : w = lowHalf s.geom := hw
  obtain rfl : h = highHalf s.geom := hh
  rw [show Instr.create = Command.instr .create from rfl, exec_instr_of_not_halted hhalted]
  refine ⟨fun hcreated => ?reinit, fun hcreated hgeom => ?badGeometry, fun hcreated hgeom hpools => ?resource⟩
  case reinit => rw [runCommand, runCreate, if_pos hcreated]
  case badGeometry => rw [runCommand, runCreate, if_neg (by simp [hcreated]), if_pos (hillegal.mpr hgeom)]
  case resource =>
    rw [runCommand, runCreate, if_neg (by simp [hcreated]), if_neg (mt hillegal.mp hgeom), if_pos hpools]

/-! ### START -/

/-- Settles O19: both channels are idle, so the re-arm goes through. -/
theorem startArmsChain : Obligations.StartArmsChain := by
  intro s hhalted hcreated hidle hoedone hpixel
  rw [show Instr.start = Command.instr .start from rfl, exec_instr_of_not_halted hhalted, runCommand, runStart,
    if_neg (by simp [hcreated]), if_neg (by simp [hidle]), rearm_of_idle (by exact hoedone) (by exact hpixel)]
  rfl

/-- Settles O20: `runStart` checks in R125's order, and the re-arm of an active channel fails. -/
theorem startFaultsInOrder : Obligations.StartFaultsInOrder := by
  intro s hhalted
  rw [show Instr.start = Command.instr .start from rfl, exec_instr_of_not_halted hhalted, runCommand, runStart]
  refine ⟨fun hcreated => ?notCreated, fun hcreated hrun => ?restart, fun hcreated hidle hactive => ?internal⟩
  case notCreated => rw [if_pos hcreated]
  case restart => rw [if_neg (by simp [hcreated]), if_pos hrun]
  case internal => rw [if_neg (by simp [hcreated]), if_neg (by simp [hidle]), rearm_of_active (by exact hactive)]

end Sys2Proof.Machine
end

section
/-! The ingest commands: the jobs they queue, their faults in order, and the source bytes and words of a job
(spec/40_gamma_ingest.md R78 to R80, spec/60_exceptions.md R125). -/

namespace Sys2Proof.Machine

variable {s : State}

/-! ### The entries of a job -/

/-- The full frame's entries: its words in pairs, top pixel first (R78). -/
theorem mem_fullFrameJob {base w half : Nat} {o : Order} {e : PackEntry} (h : e ∈ fullFrameJob base w half o) :
    ∃ k, k < half * w ∧ (e = ⟨2 * k, base, k, o, false⟩ ∨ e = ⟨2 * k + 1, base, k + half * w, o, false⟩) := by
  simpa [fullFrameJob] using h

/-- An area's entries: pixel dx of line dy (R80). -/
theorem mem_areaJob {base w half x1 y1 aw ah : Nat} {o : Order} {e : PackEntry}
    (h : e ∈ areaJob base w half x1 y1 aw ah o) :
    ∃ dy dx, dy < ah ∧ dx < aw ∧ e = ⟨fbIndex w half (x1 + dx) (y1 + dy), base, dy * aw + dx, o, false⟩ := by
  obtain ⟨dy, hdy, hline⟩ := List.mem_flatMap.mp h
  obtain ⟨dx, hdx, rfl⟩ := List.mem_map.mp hline
  exact ⟨dy, dx, List.mem_range.mp hdy, List.mem_range.mp hdx, rfl⟩

/-- Settles O24: by induction on the number of pairs, each pair adding the next two words. -/
theorem fullFrameJobWritesEachWordOnce : Obligations.FullFrameJobWritesEachWordOnce := by
  intro base w half o
  have pairs (n : Nat) : (List.range n).flatMap (fun k => [2 * k, 2 * k + 1]) = List.range (2 * n) := by
    induction n with
    | zero => rfl
    | succ n ih => simp [List.range_succ, ih, Nat.mul_succ]
  have hindices : (fullFrameJob base w half o).map PackEntry.fbIndex =
      (List.range (half * w)).flatMap fun k => [2 * k, 2 * k + 1] := by
    simp [fullFrameJob, List.map_flatMap]
  rw [hindices, pairs, Nat.mul_comm half w, Nat.mul_left_comm]

/-- The pixels of the two halves are among the panel's. -/
theorem State.halves_le (s : State) : s.half * s.width + s.half * s.width ≤ s.width * s.height := by
  rw [← Nat.two_mul, ← Nat.mul_assoc, Nat.mul_comm s.width]
  exact Nat.mul_le_mul_right _ (Nat.mul_div_le _ _)

/-- The source bytes of a pixel lie in the bytes of the pixels. -/
theorem entryAddresses_range {e : PackEntry} {count a : Nat} (hpixel : e.pixel < count) (ha : a ∈ entryAddresses e) :
    e.base ≤ a ∧ a < e.base + count * 3 := by
  simp only [entryAddresses, List.mem_cons, List.not_mem_nil, or_false] at ha
  omega

/-! ### Accepted commands -/

/-- A full-frame command whose checks all pass (R78, R79). -/
theorem fullFrame_accepted (hcreated : s.status.created = true) (hbusy : s.status.busy = false)
    (hlen : s.srcLen.toNat = s.width * s.height * 3) (hsrc : s.srcAddr.toNat + s.srcLen.toNat ≤ 2 ^ 32) (o : Order) :
    settle (fullFrame o s) s = { s with
      status := { s.status with busy := true }
      pj := fullFrameJob s.srcAddr.toNat s.width s.half o } := by
  rw [fullFrame, if_neg (by simp [hcreated]), if_neg (by simp [hbusy]), if_neg (not_not_intro hlen),
    if_neg (Nat.not_lt.mpr hsrc)]
  rfl

/-- Settles O21: the two commands are the full frame in their channel orders. -/
theorem fullFrameCommandsQueueJob : Obligations.FullFrameCommandsQueueJob := by
  intro s hhalted hcreated hbusy hlen hsrc
  have accepted := fullFrame_accepted hcreated hbusy hlen hsrc
  simp only [List.forall_mem_cons]
  refine ⟨?update, ?updateBgr, nofun⟩
  case update => exact (exec_instr_of_not_halted hhalted .update).trans (congrArg _ (accepted .rgb))
  case updateBgr => exact (exec_instr_of_not_halted hhalted .updateBgr).trans (congrArg _ (accepted .bgr))

/-- Settles O22: every check of `partialArea` passes. -/
theorem updateAreaQueuesJob : Obligations.UpdateAreaQueuesJob := by
  intro s x1 y1 x2 y2 hx1 hy1 hx2 hy2 hhalted hcreated hbusy hx hy hw hh hlen hsrc
  obtain rfl : x1 = lowHalf s.areaP1 := hx1
  obtain rfl : y1 = highHalf s.areaP1 := hy1
  obtain rfl : x2 = lowHalf s.areaP2 := hx2
  obtain rfl : y2 = highHalf s.areaP2 := hy2
  rw [show Instr.updateArea = Command.instr .updateArea from rfl, exec_instr_of_not_halted hhalted, runCommand,
    partialArea, if_neg (by simp [hcreated]), if_neg (by simp [hbusy]), if_neg (by omega),
    if_neg (not_not_intro hlen), if_neg (Nat.not_lt.mpr hsrc)]
  rfl

/-! ### Faults -/

/-- Settles O23: the two ingest functions check in R125's order. -/
theorem ingestFaultsInOrder : Obligations.IngestFaultsInOrder := by
  intro s x1 y1 x2 y2 hx1 hy1 hx2 hy2 hhalted
  obtain rfl : x1 = lowHalf s.areaP1 := hx1
  obtain rfl : y1 = highHalf s.areaP1 := hy1
  obtain rfl : x2 = lowHalf s.areaP2 := hx2
  obtain rfl : y2 = highHalf s.areaP2 := hy2
  have full {i : Instr} (hi : i ∈ [Instr.update, .updateBgr]) {k : Cause}
      (hfault : ∀ o, fullFrame o s = .error k) : exec i s = .next (raiseFault k s) := by
    simp only [List.mem_cons, List.not_mem_nil, or_false] at hi
    obtain rfl | rfl := hi
    · exact (exec_instr_of_not_halted hhalted .update).trans (by rw [runCommand, hfault]; rfl)
    · exact (exec_instr_of_not_halted hhalted .updateBgr).trans (by rw [runCommand, hfault]; rfl)
  have area {k : Cause} (hfault : partialArea s = .error k) : exec .updateArea s = .next (raiseFault k s) :=
    (exec_instr_of_not_halted hhalted .updateArea).trans (by rw [runCommand, hfault]; rfl)
  have every {k : Cause} (hfull : ∀ o, fullFrame o s = .error k) (harea : partialArea s = .error k) :
      ∀ i ∈ [Instr.update, .updateBgr, .updateArea], exec i s = .next (raiseFault k s) := by
    simp only [List.forall_mem_cons]
    exact ⟨full (by simp) hfull, full (by simp) hfull, area harea, nofun⟩
  refine ⟨fun hcreated => ?notCreated, fun hcreated hbusy => ?busy, fun hcreated hbusy => ?_⟩
  case notCreated => exact every (fun o => if_pos hcreated) (if_pos hcreated)
  case busy =>
    have hpass : ¬ s.status.created = false := by simp [hcreated]
    exact every (fun o => by rw [fullFrame, if_neg hpass, if_pos hbusy])
      (by rw [partialArea, if_neg hpass, if_pos hbusy])
  have hpass : ¬ s.status.created = false := by simp [hcreated]
  have hfree : ¬ s.status.busy = true := by simp [hbusy]
  refine ⟨fun i hi => ⟨fun hlen => full hi fun o => ?_, fun hlen hsrc => full hi fun o => ?_⟩,
    fun hbad => area ?_, fun hx hy hw hh => ⟨fun hlen => area ?_, fun hlen hsrc => area ?_⟩⟩
  · rw [fullFrame, if_neg hpass, if_neg hfree, if_pos hlen]
  · rw [fullFrame, if_neg hpass, if_neg hfree, if_neg (not_not_intro hlen), if_pos hsrc]
  · rw [partialArea, if_neg hpass, if_neg hfree, if_pos hbad]
  · rw [partialArea, if_neg hpass, if_neg hfree, if_neg (by omega), if_pos hlen]
  · rw [partialArea, if_neg hpass, if_neg hfree, if_neg (by omega),
      if_neg (not_not_intro hlen), if_pos hsrc]

/-! ### Source bytes -/

/-- An accepted or refused ingest command's pending writes read pixels of the latched range only (R39). -/
theorem runCommand_job_range {c : Command} (hc : c.instr ∈ [Instr.update, .updateBgr, .updateArea]) (hpj : s.pj = [])
    {e : PackEntry} (he : e ∈ (runCommand c s).pj) :
    ∃ count, e.base = s.srcAddr.toNat ∧ e.pixel < count ∧ s.srcLen.toNat = count * 3 := by
  have full {o : Order} (he : e ∈ (settle (fullFrame o s) s).pj) :
      ∃ count, e.base = s.srcAddr.toNat ∧ e.pixel < count ∧ s.srcLen.toNat = count * 3 := by
    obtain ⟨k, hfault, _⟩ | ⟨_, _, hlen, _, hjob⟩ := settle_fullFrame o s
    · simp [hfault, hpj] at he
    · rw [hjob] at he
      have hpixels := s.halves_le
      obtain ⟨k, hk, rfl | rfl⟩ := mem_fullFrameJob he
      · exact ⟨_, rfl, by simp only; omega, hlen⟩
      · exact ⟨_, rfl, by simp only; omega, hlen⟩
  cases c with
  | create | start => simp [Command.instr] at hc
  | update => exact full he
  | updateBgr => exact full he
  | updateArea =>
    obtain ⟨k, hfault, _⟩ | ⟨_, _, _, _, _, _, hlen, _, hjob⟩ := settle_partialArea s
    · simp [runCommand, hfault, hpj] at he
    · rw [runCommand, hjob] at he
      obtain ⟨dy, dx, hdy, hdx, rfl⟩ := mem_areaJob he
      exact ⟨_, rfl, linePlace_lt hdx hdy, hlen⟩

/-- Settles O26: a pending write reads the three bytes of one of the pixels that fill the range. -/
theorem jobReadsOnlyLatchedRange : Obligations.JobReadsOnlyLatchedRange := by
  intro s t i hi hpj h e he a ha
  obtain ⟨c, rfl⟩ : ∃ c : Command, i = c.instr := by
    simp only [List.mem_cons, List.not_mem_nil, or_false] at hi
    obtain rfl | rfl | rfl := hi
    · exact ⟨.update, rfl⟩
    · exact ⟨.updateBgr, rfl⟩
    · exact ⟨.updateArea, rfl⟩
  obtain rfl : acceptCommand c s = t := Host.Outcome.next.inj ((exec_instr c s).symm.trans h)
  obtain hignored | hruns := acceptCommand_cases c s
  · simp [hignored, hpj] at he
  · rw [hruns] at he
    obtain ⟨count, hbase, hpixel, hlen⟩ := runCommand_job_range hi hpj he
    rw [← hbase, hlen]
    exact entryAddresses_range hpixel ha

end Sys2Proof.Machine
end

section
/-! One step of each agent, exactly: the four transfers on the records CREATE configures, the packer, the sequencer and
the serializers; and the turns that pass or stop (spec/40_gamma_ingest.md R81, spec/41_scan_program.md R85 to R90,
spec/42_transfer_chain.md R97 to R101, spec/43_scan_stepper.md R104). -/

namespace Sys2Proof.Machine

variable {s : State}

/-! ### The two halves of a transfer -/

theorem transfer_of_moved {c : ChanId} {v : Word} {s1 s2 : State} (henabled : transferEnabled c s = true)
    (htake : takeSource (chan c s).read s = .ok (v, s1)) (hput : putWord (chan c s).write v s1 = .ok s2) :
    transfer c s = .next (settle (advanceChannel c s2) s) := by
  simp only [transfer, henabled, htake, hput, if_true]

theorem transfer_of_take_error {c : ChanId} {f : Fault} (henabled : transferEnabled c s = true)
    (htake : takeSource (chan c s).read s = .error f) : transfer c s = .fault f := by
  simp only [transfer, henabled, htake, if_true]

theorem transfer_of_put_error {c : ChanId} {v : Word} {s1 : State} {f : Fault} (henabled : transferEnabled c s = true)
    (htake : takeSource (chan c s).read s = .ok (v, s1)) (hput : putWord (chan c s).write v s1 = .error f) :
    transfer c s = .fault f := by
  simp only [transfer, henabled, htake, hput, if_true]

theorem transfer_of_disabled {c : ChanId} (h : transferEnabled c s = false) : transfer c s = .next s := by
  simp only [transfer, h, Bool.false_eq_true, if_false]

/-- Before the last word of a run only the record advances. -/
theorem advanceChannel_inner {c : ChanId} (h : 1 < (chan c s).remain) :
    advanceChannel c s = .ok (setChan c (movedOne (chan c s)) s) :=
  if_neg (by simp only [movedOne]; omega)

/-- The last word ends the run and follows the chain. -/
theorem advanceChannel_last {c : ChanId} (h : (chan c s).remain = 1) :
    advanceChannel c s = followChain (chan c s).chain (endRun c (movedOne (chan c s)) s) :=
  if_pos (by simp only [movedOne, h])

/-! ### Locations without a rule -/

theorem takeSource_of_no_rule {l : Loc} (h : l ∈ [Loc.sink, .dtx, .rtx] ∨ (l = .rrx ∧ s.rrx = [])) :
    takeSource l s = .error .noTransferRule := by
  simp only [List.mem_cons, List.not_mem_nil, or_false] at h
  obtain (rfl | rfl | rfl) | ⟨rfl, hrrx⟩ := h
  · rfl
  · rfl
  · rfl
  · rw [takeSource, hrrx]

theorem takeSource_of_no_word {i : Nat} (h : s.fbWords ≤ i) : takeSource (.fb i) s = .error .noFbWord :=
  if_neg (Nat.not_lt.mpr h)

theorem exists_takeSource_ok {l : Loc} (h : l ∈ [Loc.zero, .desc] ∨ (l = .rrx ∧ s.rrx ≠ []) ∨
    (∃ i, l = .fb i ∧ i < s.fbWords)) : ∃ v s1, takeSource l s = .ok (v, s1) := by
  simp only [List.mem_cons, List.not_mem_nil, or_false] at h
  obtain (rfl | rfl) | ⟨rfl, hrrx⟩ | ⟨i, rfl, hi⟩ := h
  · exact ⟨_, _, rfl⟩
  · exact ⟨_, _, rfl⟩
  · obtain ⟨v, rest, hcons⟩ := List.exists_cons_of_ne_nil hrrx
    exact ⟨_, _, by rw [takeSource, hcons]⟩
  · exact ⟨_, _, if_pos hi⟩

theorem putWord_of_no_rule {l : Loc} (h : l ∈ [Loc.zero, .desc, .rrx] ∨ ∃ i, l = .fb i) (v : Word) (s : State) :
    putWord l v s = .error .noTransferRule := by
  simp only [List.mem_cons, List.not_mem_nil, or_false] at h
  obtain (rfl | rfl | rfl) | ⟨i, rfl⟩ := h <;> rfl

/-! ### Turns that pass -/

/-- What leaves a channel without a transfer (R97). -/
theorem transferEnabled_eq_false {c : ChanId} (h : (chan c s).active = false ∨ (chan c s).remain = 0 ∨
    ((chan c s).pace = .dtxSpace ∧ s.build.serTxDepth ≤ s.dtx.length) ∨
    ((chan c s).pace = .rtxSpace ∧ s.build.serTxDepth ≤ s.rtx.length) ∨
    ((chan c s).pace = .rrxData ∧ s.rrx = [])) : transferEnabled c s = false := by
  rw [transferEnabled]
  obtain h | h | ⟨h, hq⟩ | ⟨h, hq⟩ | ⟨h, hq⟩ := h
  · simp [h]
  · simp [h]
  · simp [h, paceHolds, hq]
  · simp [h, paceHolds, hq]
  · simp [h, paceHolds, hq]

theorem exec_packWrite_of_disabled (h : packEnabled s = false) : exec .packWrite s = .next s := by
  simp only [exec, execPackWrite, packStep, h, Bool.false_eq_true, if_false]

theorem exec_seqStep_of_disabled (h : eventEnabled s = false) : exec .seqStep s = .next s :=
  if_neg (by simp [h])

theorem exec_serDataPop_of_empty (h : s.dtx = []) : exec .serDataPop s = .next s := by
  simp only [exec, execSerDataPop, h]

theorem exec_serRowTake_of_waiting (h : s.phase ≠ .idle ∨ s.rtx = []) : exec .serRowTake s = .next s := by
  simp only [exec, execSerRowTake]
  split
  next hphase hrtx => simp [hphase, hrtx] at h
  next => rfl
  next => rfl

theorem exec_serRowDone_of_waiting (h : s.phase = .idle ∨ s.build.serRxDepth ≤ s.rrx.length) :
    exec .serRowDone s = .next s := by
  simp only [exec, execSerRowDone]
  split
  next => rfl
  next d hphase => exact if_neg (Nat.not_lt.mpr (by simpa [hphase] using h))

/-! ### CH_PIXEL -/

section
variable {i n r : Nat} (hch : s.chPixel = ⟨.fb i, true, .dtx, false, n, r + 1, true, some .filler, .dtxSpace, false⟩)
  (hi : i < s.fbWords) (hroom : s.dtx.length < s.build.serTxDepth)
include hch hi hroom

/-- FB[i] moves to DTX, whatever the record does then (R98). -/
theorem exec_xferPixel_moved : exec .xferPixel s =
    .next (settle (advanceChannel .pixel { s with dtx := s.dtx ++ [fbRead i s] }) s) := by
  refine transfer_of_moved (v := fbRead i s) (s1 := s) ?_ ?_ ?_
  · simp [transferEnabled, paceHolds, hch, hroom]
  · simp [takeSource, hch, hi]
  · simp [putWord, hch]

theorem exec_xferPixel_inner (hr : 0 < r) : exec .xferPixel s = .next { s with
    dtx := s.dtx ++ [fbRead i s]
    chPixel := { s.chPixel with read := .fb (i + 1), remain := r } } := by
  rw [exec_xferPixel_moved hch hi hroom, advanceChannel_inner (by simp [hch, hr])]
  simp [settle, setChan, movedOne, advanceRead, hch]

theorem exec_xferPixel_last (hr : r = 0) (hidle : s.chFiller.active = false) : exec .xferPixel s = .next { s with
    dtx := s.dtx ++ [fbRead i s]
    chPixel := { s.chPixel with read := .fb (i + 1), remain := 0, active := false }
    chFiller := { s.chFiller with active := true, remain := s.chFiller.count } } := by
  rw [exec_xferPixel_moved hch hi hroom, advanceChannel_last (by simp [hch, hr])]
  simp [settle, followChain, endRun, trigger, setChan, movedOne, advanceRead, hch, hidle, hr]

theorem exec_xferPixel_internal (hr : r = 0) (hactive : s.chFiller.active = true) :
    exec .xferPixel s = .next (raiseFault .internal s) := by
  rw [exec_xferPixel_moved hch hi hroom, advanceChannel_last (by simp [hch, hr])]
  simp [settle, followChain, endRun, trigger, movedOne, hch, hactive]

end

/-! ### CH_FILLER -/

section
variable {n r : Nat} (hch : s.chFiller = ⟨.zero, false, .dtx, false, n, r + 1, true, some .row, .dtxSpace, false⟩)
  (hroom : s.dtx.length < s.build.serTxDepth)
include hch hroom

/-- A zero word moves to DTX, whatever the record does then (R99). -/
theorem exec_xferFiller_moved : exec .xferFiller s =
    .next (settle (advanceChannel .filler { s with dtx := s.dtx ++ [0] }) s) := by
  refine transfer_of_moved (v := 0) (s1 := s) ?_ ?_ ?_
  · simp [transferEnabled, paceHolds, hch, hroom]
  · simp [takeSource, hch]
  · simp [putWord, hch]

theorem exec_xferFiller_inner (hr : 0 < r) : exec .xferFiller s = .next { s with
    dtx := s.dtx ++ [0]
    chFiller := { s.chFiller with remain := r } } := by
  rw [exec_xferFiller_moved hch hroom, advanceChannel_inner (by simp [hch, hr])]
  simp [settle, setChan, movedOne, advanceRead, hch]

theorem exec_xferFiller_last (hr : r = 0) (hidle : s.chRow.active = false) : exec .xferFiller s = .next { s with
    dtx := s.dtx ++ [0]
    chFiller := { s.chFiller with remain := 0, active := false }
    chRow := { s.chRow with active := true, remain := s.chRow.count } } := by
  rw [exec_xferFiller_moved hch hroom, advanceChannel_last (by simp [hch, hr])]
  simp [settle, followChain, endRun, trigger, setChan, movedOne, advanceRead, hch, hidle, hr]

theorem exec_xferFiller_internal (hr : r = 0) (hactive : s.chRow.active = true) :
    exec .xferFiller s = .next (raiseFault .internal s) := by
  rw [exec_xferFiller_moved hch hroom, advanceChannel_last (by simp [hch, hr])]
  simp [settle, followChain, endRun, trigger, movedOne, hch, hactive]

end

/-! ### CH_ROW and CH_OEDONE -/

theorem exec_xferRow_sends {n : Nat} (hch : s.chRow = ⟨.desc, false, .rtx, false, n, 1, true, none, .rtxSpace, false⟩)
    (hroom : s.rtx.length < s.build.serTxDepth) : exec .xferRow s = .next { s with
      rtx := s.rtx ++ [s.desc]
      chRow := { s.chRow with remain := 0, active := false } } := by
  have hmoved : transfer .row s = .next (settle (advanceChannel .row { s with rtx := s.rtx ++ [s.desc] }) s) := by
    refine transfer_of_moved (v := s.desc) (s1 := s) ?_ ?_ ?_
    · simp [transferEnabled, paceHolds, hch, hroom]
    · simp [takeSource, hch]
    · simp [putWord, hch]
  rw [show exec .xferRow s = transfer .row s from rfl, hmoved, advanceChannel_last (by simp [hch])]
  simp [settle, followChain, endRun, setChan, movedOne, advanceRead, hch]

theorem exec_xferOedone_raises {n : Nat} {token : Word} {rest : List Word}
    (hch : s.chOedone = ⟨.rrx, false, .sink, false, n, 1, true, none, .rrxData, true⟩) (hrrx : s.rrx = token :: rest) :
    exec .xferOedone s = .next { s with
      sink := token
      rrx := rest
      chOedone := { s.chOedone with remain := 0, active := false }
      status := { s.status with intPend := true } } := by
  have hmoved : transfer .oedone s =
      .next (settle (advanceChannel .oedone { s with rrx := rest, sink := token }) s) := by
    refine transfer_of_moved (v := token) (s1 := { s with rrx := rest }) ?_ ?_ ?_
    · simp [transferEnabled, paceHolds, hch, hrrx]
    · simp [takeSource, hch, hrrx]
    · simp [putWord, hch]
  rw [show exec .xferOedone s = transfer .oedone s from rfl, hmoved, advanceChannel_last (by simp [hch])]
  simp [settle, followChain, endRun, setIntPend, setChan, movedOne, advanceRead, hch]

/-! ### The sequencer -/

theorem execSeqStep_of_enabled (h : eventEnabled s = true) : execSeqStep s = .next (settle (seqBody s) s) :=
  if_pos h

theorem exec_seqStep_of_idle (h : eventEnabled s = true) (ho : s.chOedone.active = false)
    (hp : s.chPixel.active = false) : exec .seqStep s = .next { s with
      status := { s.status with intPend := false }
      scan := nextScan s
      shamt := if (nextScan s).plane ≠ s.scan.plane then (nextScan s).plane else s.shamt
      desc := descOf (nextScan s).row (nextScan s).plane
      chRow := { s.chRow with read := .desc }
      chOedone := { s.chOedone with write := .sink, active := true, remain := s.chOedone.count }
      chPixel := { s.chPixel with
        read := .fb ((nextScan s).row.toNat * s.width * 2), active := true, remain := s.chPixel.count } } := by
  rw [exec, execSeqStep_of_enabled h, seqBody, rearm_of_idle (by simpa using ho) (by simpa using hp), advanceScan_eq]
  rfl

theorem exec_seqStep_of_active (h : eventEnabled s = true) (ha : s.chOedone.active = true ∨ s.chPixel.active = true) :
    exec .seqStep s = .next (raiseFault .internal s) := by
  rw [exec, execSeqStep_of_enabled h, seqBody, rearm_of_active (by simpa using ha)]
  rfl

/-- A descriptor as a number, for every value of PLANE's field (R103). -/
theorem descOf_eq_ofNat (row : BitVec 5) (plane : BitVec 4) :
    descOf row plane = BitVec.ofNat 32 (row.toNat + (6 <<< plane.toNat) <<< 5) := by
  have hrow : (placeField 0 row).toNat = row.toNat := placeField_zero_toNat (by decide) row
  have hle : 6 <<< plane.toNat ≤ 6 * 2 ^ 15 := by
    rw [Nat.shiftLeft_eq]
    exact Nat.mul_le_mul_left _ (Nat.pow_le_pow_right (by decide) (by omega))
  have hpw : (BitVec.ofNat 32 Config.pwBase <<< plane.toNat).toNat = 6 <<< plane.toNat := by
    rw [BitVec.toNat_shiftLeft, BitVec.toNat_ofNat]
    exact Nat.mod_eq_of_lt (Nat.lt_of_le_of_lt hle (by decide))
  have hplaced : (6 <<< plane.toNat) * 2 ^ 5 ≤ 6 * 2 ^ 15 * 2 ^ 5 := Nat.mul_le_mul_right _ hle
  apply BitVec.eq_of_toNat_eq
  have hlt := row.isLt
  rw [descOf, or_placeField_toNat _ _ _ (by rw [hrow]; exact hlt)
    (by rw [hpw]; exact Nat.lt_of_le_of_lt hplaced (by decide)), hrow, hpw, BitVec.toNat_ofNat, Nat.shiftLeft_eq _ 5,
    Nat.mod_eq_of_lt (by omega)]

/-! ### The obligations on single steps -/

/-- Settles O31. CH_FILLER's idleness matters for the last word only, whose chain it is. -/
theorem xferPixelMovesWord : Obligations.XferPixelMovesWord :=
  fun _ _ _ _ hch hi hroom => ⟨exec_xferPixel_inner hch hi hroom, exec_xferPixel_last hch hi hroom⟩

/-- Settles O32. CH_ROW's idleness matters for the last word only, whose chain it is. -/
theorem xferFillerMovesZero : Obligations.XferFillerMovesZero :=
  fun _ _ _ hch hroom => ⟨exec_xferFiller_inner hch hroom, exec_xferFiller_last hch hroom⟩

/-- Settles O33: the run has one word and no chain. -/
theorem xferRowSendsDescriptor : Obligations.XferRowSendsDescriptor :=
  fun _ _ hch hroom => exec_xferRow_sends hch hroom

/-- Settles O34: the run has one word, no chain, and IRQ set. -/
theorem xferOedoneRaisesEvent : Obligations.XferOedoneRaisesEvent :=
  fun _ _ _ _ hch hrrx => exec_xferOedone_raises hch hrrx

/-- Settles O35: a trigger of an active channel is INTERNAL, and the operation leaves its word unmoved. -/
theorem triggerOfActiveChannelFaultsInternal : Obligations.TriggerOfActiveChannelFaultsInternal := by
  intro s i n
  refine ⟨fun hch hi hroom hactive => exec_xferPixel_internal hch hi hroom rfl hactive,
    fun hch hroom hactive => exec_xferFiller_internal hch hroom rfl hactive,
    fun hrun hen hpend hactive => exec_seqStep_of_active ?_ hactive⟩
  simp [eventEnabled, hrun, hen, hpend]

/-- Settles O36: the source is looked at first, the destination only for a word taken. -/
theorem accessesWithoutRuleStop : Obligations.AccessesWithoutRuleStop := by
  intro s
  have stops (c : ChanId) (henabled : transferEnabled c s = true) :
      ((chan c s).read ∈ [Loc.sink, .dtx, .rtx] ∨ ((chan c s).read = .rrx ∧ s.rrx = []) →
        transfer c s = .fault .noTransferRule) ∧
      (∀ i, (chan c s).read = .fb i → s.fbWords ≤ i → transfer c s = .fault .noFbWord) ∧
      ((chan c s).read ∈ [Loc.zero, .desc] ∨ ((chan c s).read = .rrx ∧ s.rrx ≠ []) ∨
          (∃ i, (chan c s).read = .fb i ∧ i < s.fbWords) →
        (chan c s).write ∈ [Loc.zero, .desc, .rrx] ∨ (∃ i, (chan c s).write = .fb i) →
        transfer c s = .fault .noTransferRule) := by
    refine ⟨fun hread => transfer_of_take_error henabled (takeSource_of_no_rule hread), fun i hread hi => ?_,
      fun hread hwrite => ?_⟩
    · exact transfer_of_take_error henabled (hread ▸ takeSource_of_no_word hi)
    · obtain ⟨v, s1, htake⟩ := exists_takeSource_ok hread
      exact transfer_of_put_error henabled htake (putWord_of_no_rule hwrite v s1)
  refine ⟨?transfers, fun e rest hpj henabled hbeyond => ?packer⟩
  case transfers =>
    simp only [List.forall_mem_cons]
    exact ⟨stops .pixel, stops .filler, stops .row, stops .oedone, nofun⟩
  case packer =>
    simp only [exec, execPackWrite, packStep, henabled, hpj, if_neg (Nat.not_lt.mpr hbeyond), if_true]

/-- Settles O37: each agent's own condition fails. -/
theorem agentsWithoutStepWait : Obligations.AgentsWithoutStepWait := by
  intro s
  refine ⟨fun hpj => exec_packWrite_of_disabled ?_, fun e rest hpj hrefused => exec_packWrite_of_disabled ?_, ?channels,
    fun h => exec_seqStep_of_disabled ?_, exec_serDataPop_of_empty, exec_serRowTake_of_waiting,
    exec_serRowDone_of_waiting⟩
  · rw [packEnabled, hpj]
  · rw [packEnabled, hpj]
    simpa using hrefused
  case channels =>
    have waits (c : ChanId) := fun h => transfer_of_disabled (transferEnabled_eq_false (c := c) (s := s) h)
    simp only [List.forall_mem_cons]
    exact ⟨waits .pixel, waits .filler, waits .row, waits .oedone, nofun⟩
  · obtain h | h | h := h <;> simp [eventEnabled, h]

/-- Settles O38: the two channels are idle, so the handler goes through, and neither index outgrows its field. -/
theorem seqStepAdvancesScan : Obligations.SeqStepAdvancesScan := by
  intro s r p hrun hen hpend hoedone hpixel hhalf hr hp
  have hplane := s.scan.plane.isLt
  have hnext : nextScan s = ⟨BitVec.ofNat 5 r, BitVec.ofNat 4 p⟩ := by
    have hpos : scanNext s.half (s.scan.row.toNat, s.scan.plane.toNat) = (r, p) := by
      rw [hr, hp, scanNext]
      simp only [State.half, Config.bitDepth, ge_iff_le]
      split
      · split <;> rfl
      · rfl
    rw [nextScan, hpos]
  have hrow : (BitVec.ofNat 5 r).toNat = r := by
    rw [BitVec.toNat_ofNat]
    refine Nat.mod_eq_of_lt ?_
    rw [hr]
    split <;> omega
  have hpl : (BitVec.ofNat 4 p).toNat = p := by
    rw [BitVec.toNat_ofNat]
    refine Nat.mod_eq_of_lt ?_
    rw [hp]
    split
    · split <;> omega
    · exact hplane
  have hsame : BitVec.ofNat 4 p ≠ s.scan.plane ↔ ¬ p = s.scan.plane.toNat := by
    rw [Ne, ← BitVec.toNat_inj, hpl]
  rw [exec_seqStep_of_idle (by simp [eventEnabled, hrun, hen, hpend]) hoedone hpixel, hnext, descOf_eq_ofNat, hrow, hpl]
  simp only [hsame, ite_not]

/-- Settles O44: the two parts of what is shown are the descriptor's two fields. -/
theorem serRowTakeShowsDescriptor : Obligations.SerRowTakeShowsDescriptor := by
  intro s d rest hphase hrtx
  refine ⟨?_, rfl⟩
  simp only [exec, execSerRowTake, hphase, hrtx]

/-- Settles O45: RRX has room for the token. -/
theorem serRowDonePushesToken : Obligations.SerRowDonePushesToken := by
  intro s d hphase hroom
  simp only [exec, execSerRowDone, hphase, if_pos hroom]

/-- Settles O46: the field of a colour read back is its corrected channel, and the shift picks a bit of it. -/
theorem shiftSelectsBitPlane : Obligations.ShiftSelectsBitPlane := by
  intro b red green blue p l hp
  obtain ⟨hred, hgreen, hblue, _⟩ := packedWordFields b red green blue
  have bit {offset : Nat} {v : Intensity} (h : (pack b red green blue).extractLsb' offset 10 = v) :
      (pack b red green blue).getLsbD (offset + p.toNat) = v.getLsbD p.toNat := by
    rw [← h, BitVec.getLsbD_extractLsb', decide_eq_true hp, Bool.true_and]
  exact Prod.ext (bit hred) (Prod.ext (bit hgreen) (bit hblue))

/-! ### The packer -/

/-- The packer's step on a head entry whose source bytes are admitted, word by word. -/
theorem exec_packWrite_head {e : PackEntry} {rest : List PackEntry} (hpj : s.pj = e :: rest)
    (hi : e.fbIndex < s.fbWords) (hadmit : ∀ a ∈ entryAddresses e, admits s.build a = true) :
    ∃ t, exec .packWrite s = .next t ∧
      t = { s with
        fb := t.fb
        pj := rest
        draws := if e.stale then s.draws + 1 else s.draws
        status := { s.status with busy := if rest = [] then false else s.status.busy } } ∧
      fbRead e.fbIndex t = storedWord e s ∧ ∀ j, j ≠ e.fbIndex → fbRead j t = fbRead j s := by
  have henabled : packEnabled s = true := by
    rw [packEnabled, hpj]
    exact List.all_eq_true.mpr hadmit
  have hbusy : (if rest.isEmpty then false else s.status.busy) = if rest = [] then false else s.status.busy := by
    simp only [List.isEmpty_iff]
  have hhead := execPackWrite_head hpj henabled hi
  rw [hbusy] at hhead
  refine ⟨_, hhead, rfl, ?_, fun j hj => ?_⟩
  · exact fbRead_fbWrite_same e.fbIndex (storedWord e s) s
  · exact fbRead_fbWrite_ne hj (storedWord e s) s

/-- Settles O27: an unmarked entry stores its packed pixel, in its channel order. -/
theorem packWriteStoresPixel : Obligations.PackWriteStoresPixel := by
  intro s e rest b0 b1 b2 hpj hfresh hi h0 h1 h2 hb0 hb1 hb2
  obtain ⟨t, hstep, ht, hword, hother⟩ := exec_packWrite_head hpj hi (by simp [entryAddresses, h0, h1, h2])
  have hpacked : fbRead e.fbIndex t = entryWord e s := by rw [hword, storedWord, hfresh]; rfl
  refine ⟨t, hstep, by simpa [hfresh] using ht, fun horder => ?_, fun horder => ?_, hother⟩
  · rw [hpacked, hb0, hb1, hb2, entryWord, horder]
    rfl
  · rw [hpacked, hb0, hb1, hb2, entryWord, horder]
    rfl

/-- Settles O28: a marked entry stores the next free draw. -/
theorem packWriteOfChangedSourceIsFree : Obligations.PackWriteOfChangedSourceIsFree := by
  intro s e rest hpj hstale hi hadmit
  obtain ⟨t, hstep, ht, hword, hother⟩ := exec_packWrite_head hpj hi hadmit
  exact ⟨t, hstep, by simpa [hstale] using ht, by rw [hword, storedWord, hstale]; rfl, hother⟩

end Sys2Proof.Machine
end

section
/-! What the host's operations and the agents' can do in any state, each said once, and what follows for every state:
faults are precise, and no operation writes a constant (spec/44_driver_control.md R114 to R119,
spec/60_exceptions.md R122, spec/00_scope.md R9). -/

namespace Sys2Proof.Machine

open Host

variable {s t : State} {i : Instr}

/-! ### The host's operations -/

/-- Everything an operation of the host can do. -/
inductive HostEffect (s : State) (i : Instr) : State → Prop
  | pass : HostEffect s i s
  | fault {c : Cause} (hc : c ≠ .noFault) (hinternal : c = .internal →
      s.status.running = false ∧ (s.chOedone.active = true ∨ s.chPixel.active = true)) : HostEffect s i (raiseFault c s)
  | halt (hcreated : s.status.created = false) :
      HostEffect s i (raiseFault .resource { s with status := { s.status with halted := true } })
  | read (v : Word) : HostEffect s i { s with rdata := v }
  | badRead {size : Width} {offset : Word} (hi : i = .busRd size offset) :
      HostEffect s i { raiseFault .badReg s with rdata := 0 }
  | arguments (geom srcAddr srcLen areaP1 areaP2 : Word) : HostEffect s i
      { s with geom := geom, srcAddr := srcAddr, srcLen := srcLen, areaP1 := areaP1, areaP2 := areaP2 }
  | created (hcreated : s.status.created = false) (hhalted : s.status.halted = false)
      (hlegal : legalGeometry s.build.fbCapacity (lowHalf s.geom) (highHalf s.geom) = true)
      (hslots : 2 ≤ s.freeSm.length) (hchannels : 4 ≤ s.freeCh.length) : HostEffect s i (created s)
  | started (hcreated : s.status.created = true) (hidle : s.status.running = false) : HostEffect s i { s with
      desc := descOf s.scan.row s.scan.plane
      shamt := 0
      chRow := { s.chRow with read := .desc }
      chOedone := { s.chOedone with write := .sink, active := true, remain := s.chOedone.count }
      chPixel := { s.chPixel with read := .fb 0, active := true, remain := s.chPixel.count }
      status := { s.status with running := true } }
  | queued {job : List PackEntry} (hcreated : s.status.created = true)
      (hwords : s.height % 2 = 0 → ∀ e ∈ job, e.fbIndex < s.fbWords)
      (hnonempty : 1 ≤ s.width → 2 ≤ s.height → job ≠ []) :
      HostEffect s i { s with status := { s.status with busy := true }, pj := job }

theorem fullFrameJob_ne_nil {base w half : Nat} {o : Order} (hw : 0 < w) (hhalf : 0 < half) :
    fullFrameJob base w half o ≠ [] := by
  refine List.ne_nil_of_mem (a := ⟨2 * 0, base, 0, o, false⟩) (List.mem_flatMap.mpr ⟨0, ?_, List.mem_cons_self⟩)
  exact List.mem_range.mpr (Nat.mul_pos hhalf hw)

theorem areaJob_ne_nil {base w half x1 y1 aw ah : Nat} {o : Order} (hw : 0 < aw) (hh : 0 < ah) :
    areaJob base w half x1 y1 aw ah o ≠ [] := by
  refine List.ne_nil_of_mem (List.mem_flatMap.mpr ⟨0, List.mem_range.mpr hh, List.mem_map.mpr ⟨0, ?_, rfl⟩⟩)
  exact List.mem_range.mpr hw

theorem settle_fullFrame_effect (o : Order) (s : State) : HostEffect s i (settle (fullFrame o s) s) := by
  obtain ⟨c, hfault, hc, hc'⟩ | ⟨hcreated, _, _, _, hjob⟩ := settle_fullFrame o s
  · exact hfault ▸ .fault hc' fun h => absurd h hc
  · refine hjob ▸ .queued hcreated (fun _ e he => ?_) fun hw hh => fullFrameJob_ne_nil hw ?_
    · have hpixels := s.halves_le
      obtain ⟨k, hk, rfl | rfl⟩ := mem_fullFrameJob he <;> simp only [State.fbWords] <;> omega
    · exact Nat.div_pos hh (by decide)

theorem settle_partialArea_effect (s : State) : HostEffect s i (settle (partialArea s) s) := by
  obtain ⟨c, hfault, hc, hc'⟩ | ⟨hcreated, _, hx, hy, hw, hh, _, _, hjob⟩ := settle_partialArea s
  · exact hfault ▸ .fault hc' fun h => absurd h hc
  · refine hjob ▸ .queued hcreated (fun heven e he => ?_) fun _ _ => areaJob_ne_nil (Nat.succ_pos _) (Nat.succ_pos _)
    have hheight : 2 * s.half = s.height := Nat.mul_div_cancel' (Nat.dvd_of_mod_eq_zero heven)
    obtain ⟨dy, dx, hdy, hdx, rfl⟩ := mem_areaJob he
    rw [State.fbWords, ← hheight]
    exact fbIndex_lt (by omega) (by omega)

theorem runCommand_effect (hhalted : s.status.halted = false) (c : Command) : HostEffect s i (runCommand c s) := by
  cases c with
  | create =>
    rw [runCommand]
    obtain ⟨c, hfault, hc, hc'⟩ | ⟨hcreated, hhalt⟩ | ⟨hcreated, hlegal, hslots, hchannels, hrun⟩ := runCreate_cases s
    · exact hfault ▸ .fault hc' fun h => absurd h hc
    · exact hhalt ▸ .halt hcreated
    · exact hrun ▸ .created hcreated hhalted hlegal hslots hchannels
  | start =>
    rw [runCommand]
    obtain ⟨c, hfault, hc, hinternal⟩ | ⟨hcreated, hidle, _, _, hrun⟩ := runStart_cases s
    · exact hfault ▸ .fault hc hinternal
    · exact hrun ▸ .started hcreated hidle
  | update => exact settle_fullFrame_effect .rgb s
  | updateBgr => exact settle_fullFrame_effect .bgr s
  | updateArea => exact settle_partialArea_effect s

theorem acceptCommand_effect (c : Command) (s : State) : HostEffect s i (acceptCommand c s) := by
  unfold acceptCommand
  split
  next => exact .pass
  next hhalted => exact runCommand_effect (Bool.eq_false_iff.mpr hhalted) c

theorem rejectCommand_effect (s : State) : HostEffect s i (rejectCommand s) := by
  unfold rejectCommand
  split
  · exact .pass
  · exact .fault (by decide) nofun

theorem writeCmd_effect (v : Word) (s : State) : HostEffect s i (writeCmd v s) := by
  unfold writeCmd
  split
  · exact acceptCommand_effect _ s
  · exact rejectCommand_effect s

theorem busWrite_effect (size : Width) (offset v : Word) (s : State) : HostEffect s i (busWrite size offset v s) := by
  obtain hcmd | ⟨r, hreg⟩ | hfault := busWrite_cases size offset v s
  · exact hcmd ▸ writeCmd_effect v s
  · exact writeArgument_frame hreg ▸ .arguments ..
  · exact hfault ▸ .fault (by decide) nofun

/-- A bus read returns a value, or faults BAD_REG and returns 0 (R115). -/
theorem busRd_effect (size : Width) (offset : Word) (s : State) : HostEffect s (.busRd size offset)
    { (busRead size offset s).2 with rdata := (busRead size offset s).1 } := by
  unfold busRead
  split
  · exact .read _
  · exact .read _
  · exact .badRead rfl

/-- What every operation of the host does. -/
theorem exec_host (hi : i.agent = .host) (h : exec i s = .next t) : HostEffect s i t := by
  have command (c : Command) (hc : (.next (acceptCommand c s) : Outcome State Fault Refusal) = .next t) :
      HostEffect s i t := Outcome.next.inj hc ▸ acceptCommand_effect c s
  cases i with
  | create => exact command .create h
  | start => exact command .start h
  | update => exact command .update h
  | updateBgr => exact command .updateBgr h
  | updateArea => exact command .updateArea h
  | busWr size offset v =>
    cases h
    exact busWrite_effect size offset v s
  | busRd size offset =>
    cases h
    exact busRd_effect size offset s
  | packWrite | xferPixel | xferFiller | xferRow | xferOedone => cases hi
  | seqStep | patchShift | serDataPop | serRowTake | serRowDone => cases hi

/-! ### The agents' operations -/

/-- What no agent's operation changes: the parameters, every register the host or CREATE writes, host memory, the pools,
the host's last read value and the input list; of STATUS only BUSY and INT_PEND change. An operation that raises
INTERNAL leaves all but the record of it (R122). -/
theorem exec_agent_frame (hi : i.agent ≠ .host) (h : exec i s = .next t) :
    t = raiseFault .internal s ∨ t = { s with
      status := { s.status with busy := t.status.busy, intPend := t.status.intPend }
      scan := t.scan, desc := t.desc, shamt := t.shamt, fb := t.fb, sink := t.sink
      chPixel := t.chPixel, chFiller := t.chFiller, chRow := t.chRow, chOedone := t.chOedone
      dtx := t.dtx, rtx := t.rtx, rrx := t.rrx, pj := t.pj, phase := t.phase, popped := t.popped, ds := t.ds
      rs := t.rs, draws := t.draws } := by
  have chain (c : ChanId) (ht : transfer c s = .next t) := transfer_frame ht
  cases i with
  | create | start | update | updateBgr | updateArea | busWr | busRd => exact absurd rfl hi
  | packWrite =>
    obtain ⟨_, rfl⟩ | ⟨e, rest, _, _, _, rfl⟩ := execPackWrite_next h
    · exact .inr rfl
    · exact .inr rfl
  | xferPixel => exact (chain .pixel h).imp_right fun ⟨ht, _⟩ => by rw [ht]
  | xferFiller => exact (chain .filler h).imp_right fun ⟨ht, _⟩ => by rw [ht]
  | xferRow => exact (chain .row h).imp_right fun ⟨ht, _⟩ => by rw [ht]
  | xferOedone => exact (chain .oedone h).imp_right fun ⟨ht, _⟩ => by rw [ht]
  | seqStep =>
    obtain ⟨_, rfl⟩ | ⟨_, _, _, rfl⟩ | ⟨_, _, rfl⟩ := execSeqStep_next h
    · exact .inr rfl
    · exact .inr rfl
    · exact .inl rfl
  | patchShift p =>
    obtain ⟨_, rfl⟩ | ⟨_, _, rfl⟩ := execPatchShift_next h
    · exact .inr rfl
    · exact .inr rfl
  | serDataPop => exact .inr (by rw [execSerDataPop_frame h])
  | serRowTake => exact .inr (by rw [execSerRowTake_frame h])
  | serRowDone => exact .inr (by rw [execSerRowDone_frame h])

/-! ### The obligations -/

/-- Settles O10: of the effects only a recorded fault, RESOURCE's halt and a faulting read set FAULT. -/
theorem faultsArePrecise : Obligations.FaultsArePrecise := by
  intro s
  refine ⟨fun c => ⟨rfl, fun hfault => if_neg (by simp [hfault]), fun hfault => if_pos hfault⟩, ?_⟩
  intro i t h hbefore hafter
  have unchanged (hsame : t.status.fault = s.status.fault) : False := by
    rw [hsame, hbefore] at hafter
    cases hafter
  by_cases hi : i.agent = .host
  · cases exec_host hi h with
    | fault hc => exact .inl ⟨_, hc, rfl⟩
    | halt => exact .inr (.inl rfl)
    | badRead hrd => exact .inr (.inr ⟨_, _, hrd, rfl⟩)
    | pass | read | arguments | created | started | queued => exact (unchanged rfl).elim
  · obtain rfl | ht := exec_agent_frame hi h
    · exact .inl ⟨.internal, by decide, rfl⟩
    · exact (unchanged (by rw [ht])).elim

/-- Settles O60: no effect touches them but CREATE's, on a block not yet created. -/
theorem constantsStayConstant : Obligations.ConstantsStayConstant := by
  intro s t i h
  by_cases hi : i.agent = .host
  · cases exec_host hi h with
    | created hcreated => exact ⟨rfl, fun _ => rfl, rfl, fun hc => absurd hc (by simp [hcreated])⟩
    | pass | fault | halt | read | badRead | arguments | started | queued =>
      exact ⟨rfl, fun _ => rfl, rfl, fun _ => ⟨rfl, rfl⟩⟩
  · obtain rfl | ht := exec_agent_frame hi h
    · exact ⟨rfl, fun _ => rfl, rfl, fun _ => ⟨rfl, rfl⟩⟩
    · rw [ht]
      exact ⟨rfl, fun _ => rfl, rfl, fun _ => ⟨rfl, rfl⟩⟩

end Sys2Proof.Machine
end

section
/-! What an operation can do in a state with the invariant: the host's effects, the packer's step, the seven moves of
the scan path and the data pop, each with its next state written out from the configured records (spec/42_transfer_chain.md
R93, R97 to R102, spec/43_scan_stepper.md R104, R109). -/

namespace Sys2Proof.Machine

open Host

variable {s t : State}

/-! ### The records of a created block -/

/-- A channel's record as CREATE configured it, with its READ and a run of `m` words left (R93, R95). -/
def runOf (s : State) (c : ChanId) (l : Loc) (m : Nat) : Channel :=
  { harness s.width s.build.fillerWords c with read := l, remain := m, active := decide (0 < m) }

theorem runOf_started {c : ChanId} {l : Loc} {k m : Nat} (hm : 0 < m) :
    { runOf s c l k with active := true, remain := m } = runOf s c l m := by
  rw [runOf, runOf, decide_eq_true hm]

theorem RunOk.remain_eq_zero {ch : Channel} (h : RunOk ch) (hidle : ch.active = false) : ch.remain = 0 := by
  have := h.active
  simp_all

theorem RunOk.remain_pos {ch : Channel} (h : RunOk ch) (hactive : ch.active = true) : 0 < ch.remain :=
  of_decide_eq_true (h.active.symm.trans hactive)

section
variable (h : Inv s) (hcreated : s.status.created = true)
include h hcreated

theorem Inv.chPixel_eq : s.chPixel = runOf s .pixel s.chPixel.read s.chPixel.remain :=
  (h.configured hcreated).pixel.trans (by rw [runOf, ← h.runs.1.active])

theorem Inv.chFiller_eq : s.chFiller = runOf s .filler .zero s.chFiller.remain :=
  (h.configured hcreated).filler.trans (by rw [runOf, ← h.runs.2.1.active]; rfl)

theorem Inv.chRow_eq : s.chRow = runOf s .row .desc s.chRow.remain :=
  (h.configured hcreated).row.trans (by rw [runOf, ← h.runs.2.2.1.active]; rfl)

theorem Inv.chOedone_eq : s.chOedone = runOf s .oedone .rrx s.chOedone.remain :=
  (h.configured hcreated).oedone.trans (by rw [runOf, ← h.runs.2.2.2.active]; rfl)

/-- What the re-arm of START and SEQ_STEP makes of the three records it writes (R104, R118). -/
theorem Inv.chRow_reread : { s.chRow with read := .desc } = s.chRow := by
  rw [h.chRow_eq hcreated]
  rfl

theorem Inv.chOedone_rearmed : { s.chOedone with write := .sink, active := true, remain := s.chOedone.count } =
    runOf s .oedone .rrx 1 := by
  rw [(h.configured hcreated).oedone]
  rfl

theorem Inv.chPixel_rearmed (l : Loc) : { s.chPixel with read := l, active := true, remain := s.chPixel.count } =
    runOf s .pixel l (2 * s.width) := by
  have hw : 0 < 2 * s.width := Nat.mul_pos (by decide) (h.geometry_bounds hcreated).1
  rw [(h.configured hcreated).pixel, runOf, decide_eq_true hw]
  rfl

/-- No run is longer than CREATE configured it (R93). -/
theorem Inv.remain_le : s.chPixel.remain ≤ 2 * s.width ∧ s.chFiller.remain ≤ s.build.fillerWords ∧
    s.chRow.remain ≤ 1 ∧ s.chOedone.remain ≤ 1 := by
  obtain ⟨hpixel, hfiller, hrow, hoedone⟩ := h.runs
  have conf := h.configured hcreated
  exact ⟨hpixel.remain.trans_eq (congrArg Channel.count conf.pixel),
    hfiller.remain.trans_eq (congrArg Channel.count conf.filler),
    hrow.remain.trans_eq (congrArg Channel.count conf.row),
    hoedone.remain.trans_eq (congrArg Channel.count conf.oedone)⟩

end

theorem Inv.fillerWords_pos (h : Inv s) : 0 < s.build.fillerWords :=
  Nat.lt_of_lt_of_le h.build.txDepth h.build.fillerDepth

/-- HALF's rows have 5 bits (spec/44_driver_control.md R117). -/
theorem Inv.half_le (h : Inv s) (hcreated : s.status.created = true) : s.half ≤ 32 := by
  have := h.geometry_bounds hcreated
  simp only [State.half]
  omega

/-! ### The moves -/

/-- What an operation of the scan path's agents can do, each at its position (R102, R109); the data pop can
come at any. -/
inductive ScanMove (s : State) : Instr → State → Prop
  | pixel {i m : Nat} (hat : At .pixelRun s) (hroom : s.dtx.length < s.build.serTxDepth)
      (hremain : s.chPixel.remain = m + 1) (hread : i + (m + 1) = 2 * s.width * (s.scan.row.toNat + 1)) :
      ScanMove s .xferPixel { s with
        dtx := s.dtx ++ [fbRead i s]
        chPixel := runOf s .pixel (.fb (i + 1)) m
        chFiller := runOf s .filler .zero (if m = 0 then s.build.fillerWords else 0) }
  | filler {m : Nat} (hat : At .fillerRun s) (hroom : s.dtx.length < s.build.serTxDepth)
      (hremain : s.chFiller.remain = m + 1) :
      ScanMove s .xferFiller { s with
        dtx := s.dtx ++ [0]
        chFiller := runOf s .filler .zero m
        chRow := runOf s .row .desc (if m = 0 then 1 else 0) }
  | row (hat : At .rowSend s) : ScanMove s .xferRow { s with rtx := [s.desc], chRow := runOf s .row .desc 0 }
  | take {d : Word} (hat : At .rowQueued s) :
      ScanMove s .serRowTake { s with rtx := [], rs := s.rs ++ [d], phase := .busy d }
  | done (hat : At .rowShown s) :
      ScanMove s .serRowDone { s with rrx := [Config.freeWord s.draws], draws := s.draws + 1, phase := .idle }
  | oedone {token : Word} (hat : At .tokenQueued s) :
      ScanMove s .xferOedone { s with
        sink := token
        rrx := []
        chOedone := runOf s .oedone .rrx 0
        status := { s.status with intPend := true } }
  | seq (hat : At .eventPending s) :
      ScanMove s .seqStep { s with
        status := { s.status with intPend := false }
        scan := nextScan s
        shamt := if (nextScan s).plane ≠ s.scan.plane then (nextScan s).plane else s.shamt
        desc := descOf (nextScan s).row (nextScan s).plane
        chOedone := runOf s .oedone .rrx 1
        chPixel := runOf s .pixel (.fb ((nextScan s).row.toNat * s.width * 2)) (2 * s.width) }
  | pop {w : Word} {rest : List Word} (hdtx : s.dtx = w :: rest) :
      ScanMove s .serDataPop { s with
        dtx := rest, ds := s.ds ++ [⟨w, s.shamt, nextLane s⟩], popped := s.popped + 1 }

/-- Everything an operation can do in a state with the invariant; an agent whose step is enabled makes it. -/
inductive Move (s : State) (i : Instr) : State → Prop
  | pass (hdisabled : hasStep i s = false) : Move s i s
  | host {t : State} (hagent : i.agent = .host) (h : HostEffect s i t) : Move s i t
  | packed {e : PackEntry} {rest : List PackEntry} (hi : i = .packWrite) (hpj : s.pj = e :: rest)
      (hword : e.fbIndex < s.fbWords) : Move s i { s with
        fb := cellWrite e.fbIndex (storedWord e s) s.fb
        pj := rest
        draws := if e.stale then s.draws + 1 else s.draws
        status := { s.status with busy := if rest.isEmpty then false else s.status.busy } }
  | patched (hi : i = .patchShift s.scan.plane) : Move s i { s with shamt := s.scan.plane }
  | scan {t : State} (h : ScanMove s i t) : Move s i t

/-! ### Each operation makes one of them -/

/-- In a running block, at most one word waits in each row queue (R109). -/
theorem At.rtx_eq_nil {p : ScanPosition} (hat : At p s) (hp : p ≠ .rowQueued) : s.rtx = [] :=
  List.length_eq_zero_iff.mp (hat.rtx.trans (if_neg hp))

theorem At.rrx_eq_nil {p : ScanPosition} (hat : At p s) (hp : p ≠ .tokenQueued) : s.rrx = [] :=
  List.length_eq_zero_iff.mp (hat.rrx.trans (if_neg hp))

/-- A channel without a run in progress makes no transfer (R97). -/
theorem exists_move_of_disabled {c : ChanId} {i : Instr} (hi : exec i s = transfer c s)
    (hstep : hasStep i s = transferEnabled c s) (h : transferEnabled c s = false) :
    ∃ t, exec i s = .next t ∧ Move s i t :=
  ⟨s, hi.trans (transfer_of_disabled h), .pass (hstep.trans h)⟩

/-- What enables a transfer (R97). -/
theorem transferEnabled_iff {c : ChanId} : transferEnabled c s = true ↔
    (chan c s).active = true ∧ 0 < (chan c s).remain ∧ paceHolds (chan c s).pace s = true := by
  simp only [transferEnabled, Bool.and_eq_true, decide_eq_true_eq, and_assoc]

section
variable (h : Inv s)
include h

/-- CH_PIXEL's run stands inside the current row's words (R98, R111). -/
theorem Inv.pixel_reads (hactive : s.chPixel.active = true) : ∃ i m, s.chPixel.read = .fb i ∧
    s.chPixel.remain = m + 1 ∧ i + (m + 1) = 2 * s.width * (s.scan.row.toNat + 1) ∧ i < s.fbWords := by
  obtain ⟨hrun, _⟩ := h.at_of_pixel hactive
  have hcreated := h.running hrun
  obtain ⟨m, hm⟩ := Nat.exists_eq_add_one.mpr (h.runs.1.remain_pos hactive)
  have hle := (h.remain_le hcreated).1
  have hrow : 2 * s.width ≤ 2 * s.width * (s.scan.row.toNat + 1) := Nat.le_mul_of_pos_right _ (Nat.succ_pos _)
  have hlast : 2 * s.width * (s.scan.row.toNat + 1) ≤ 2 * s.width * s.half := Nat.mul_le_mul_left _ (h.row hcreated)
  have hwords : s.fbWords = 2 * s.width * s.half := by rw [h.fbWords_eq hcreated, Nat.mul_left_comm, Nat.mul_assoc]
  refine ⟨_, m, h.pixelRead hactive, hm, ?_, ?_⟩ <;> omega

theorem Inv.exec_xferPixel_move : ∃ t, exec .xferPixel s = .next t ∧ Move s .xferPixel t := by
  cases henabled : transferEnabled .pixel s with
  | false => exact exists_move_of_disabled rfl rfl henabled
  | true =>
    obtain ⟨hactive, _, hpace⟩ := transferEnabled_iff.mp henabled
    obtain ⟨hrun, hat⟩ := h.at_of_pixel hactive
    have hcreated := h.running hrun
    obtain ⟨i, m, hfb, hm, hread, hi⟩ := h.pixel_reads hactive
    have hch : s.chPixel = runOf s .pixel (.fb i) (m + 1) := by
      rw [← hfb, ← hm]
      exact h.chPixel_eq hcreated
    have hroom : s.dtx.length < s.build.serTxDepth := by
      rw [chan_pixel, hch] at hpace
      exact of_decide_eq_true hpace
    have hidle : s.chFiller.active = false := hat.filler
    have hfiller : s.chFiller = runOf s .filler .zero 0 := by
      rw [← h.runs.2.1.remain_eq_zero hidle]
      exact h.chFiller_eq hcreated
    refine ⟨_, ?_, .scan (.pixel hat hroom hm hread)⟩
    cases m with
    | zero =>
      rw [exec_xferPixel_last hch hi hroom rfl hidle, hch, hfiller, if_pos rfl,
        ← runOf_started (k := 0) h.fillerWords_pos]
      rfl
    | succ m =>
      rw [exec_xferPixel_inner hch hi hroom (Nat.succ_pos m), hch, if_neg (Nat.succ_ne_zero m), ← hfiller]
      rfl

theorem Inv.exec_xferFiller_move : ∃ t, exec .xferFiller s = .next t ∧ Move s .xferFiller t := by
  cases henabled : transferEnabled .filler s with
  | false => exact exists_move_of_disabled rfl rfl henabled
  | true =>
    obtain ⟨hactive, hpos, hpace⟩ := transferEnabled_iff.mp henabled
    obtain ⟨hrun, hat, _⟩ := h.at_of_filler hactive
    have hcreated := h.running hrun
    obtain ⟨m, hm⟩ := Nat.exists_eq_add_one.mpr hpos
    have hch : s.chFiller = runOf s .filler .zero (m + 1) := by
      rw [← hm]
      exact h.chFiller_eq hcreated
    have hroom : s.dtx.length < s.build.serTxDepth := by
      rw [chan_filler, hch] at hpace
      exact of_decide_eq_true hpace
    have hidle : s.chRow.active = false := hat.row
    have hrow : s.chRow = runOf s .row .desc 0 := by
      rw [← h.runs.2.2.1.remain_eq_zero hidle]
      exact h.chRow_eq hcreated
    refine ⟨_, ?_, .scan (.filler hat hroom hm)⟩
    cases m with
    | zero =>
      rw [exec_xferFiller_last hch hroom rfl hidle, hch, hrow]
      rfl
    | succ m =>
      rw [exec_xferFiller_inner hch hroom (Nat.succ_pos m), hch, if_neg (Nat.succ_ne_zero m), ← hrow]
      rfl

/-- CH_ROW's and CH_OEDONE's runs have one word (R93). -/
theorem Inv.chRow_of_active (hactive : s.chRow.active = true) : s.chRow = runOf s .row .desc 1 := by
  obtain ⟨hrun, _⟩ := h.at_of_row hactive
  have hcreated := h.running hrun
  have hpos := h.runs.2.2.1.remain_pos hactive
  obtain ⟨_, _, hle, _⟩ := h.remain_le hcreated
  rw [h.chRow_eq hcreated, show s.chRow.remain = 1 by omega]

theorem Inv.chOedone_of_active (hcreated : s.status.created = true) (hactive : s.chOedone.active = true) :
    s.chOedone = runOf s .oedone .rrx 1 := by
  have hpos := h.runs.2.2.2.remain_pos hactive
  obtain ⟨_, _, _, hle⟩ := h.remain_le hcreated
  rw [h.chOedone_eq hcreated, show s.chOedone.remain = 1 by omega]

theorem Inv.exec_xferRow_move : ∃ t, exec .xferRow s = .next t ∧ Move s .xferRow t := by
  cases henabled : transferEnabled .row s with
  | false => exact exists_move_of_disabled rfl rfl henabled
  | true =>
    obtain ⟨hactive, _, _⟩ := transferEnabled_iff.mp henabled
    obtain ⟨_, hat, _⟩ := h.at_of_row hactive
    have hch := h.chRow_of_active hactive
    have hempty : s.rtx = [] := hat.rtx_eq_nil (by decide)
    refine ⟨_, ?_, .scan (.row hat)⟩
    rw [exec_xferRow_sends hch (by rw [hempty]; exact h.build.txDepth), hempty, hch]
    rfl

theorem Inv.exec_xferOedone_move : ∃ t, exec .xferOedone s = .next t ∧ Move s .xferOedone t := by
  cases henabled : transferEnabled .oedone s with
  | false => exact exists_move_of_disabled rfl rfl henabled
  | true =>
    obtain ⟨hactive, _, hpace⟩ := transferEnabled_iff.mp henabled
    have hrun : s.status.running = true := by
      by_contra hidle
      exact absurd ((h.quiet (Bool.eq_false_iff.mpr hidle)).oedone.symm.trans hactive) (by decide)
    have hch := h.chOedone_of_active (h.running hrun) hactive
    have hqueued : s.rrx ≠ [] := by
      rw [chan_oedone, hch] at hpace
      exact List.ne_nil_of_length_pos (of_decide_eq_true hpace)
    obtain ⟨_, hat, _⟩ := h.at_of_rrx hqueued
    obtain ⟨token, hrrx⟩ := List.length_eq_one_iff.mp hat.rrx
    refine ⟨_, ?_, .scan (.oedone (token := token) hat)⟩
    rw [exec_xferOedone_raises hch hrrx, hch]
    rfl

theorem Inv.exec_seqStep_move : ∃ t, exec .seqStep s = .next t ∧ Move s .seqStep t := by
  cases henabled : eventEnabled s with
  | false => exact ⟨s, exec_seqStep_of_disabled henabled, .pass henabled⟩
  | true =>
    have hpend : s.status.intPend = true := by
      simp only [eventEnabled, Bool.and_eq_true] at henabled
      exact henabled.2
    obtain ⟨hrun, hat, _⟩ := h.at_of_pending hpend
    have hcreated := h.running hrun
    refine ⟨_, ?_, .scan (.seq hat)⟩
    rw [exec_seqStep_of_idle henabled hat.oedone hat.pixel, h.chRow_reread hcreated, h.chOedone_rearmed hcreated,
      h.chPixel_rearmed hcreated]

theorem Inv.exec_packWrite_move : ∃ t, exec .packWrite s = .next t ∧ Move s .packWrite t := by
  cases henabled : packEnabled s with
  | false => exact ⟨s, exec_packWrite_of_disabled henabled, .pass henabled⟩
  | true =>
    cases hpj : s.pj with
    | nil => simp [packEnabled, hpj] at henabled
    | cons e rest =>
      have hi : e.fbIndex < s.fbWords := h.jobs e (by simp [hpj])
      exact ⟨_, execPackWrite_head hpj henabled hi, .packed rfl hpj hi⟩

omit h in
theorem exec_patchShift_move (p : BitVec 4) : ∃ t, exec (.patchShift p) s = .next t ∧ Move s (.patchShift p) t := by
  cases henabled : patchEnabled p s with
  | false => exact ⟨s, if_neg (by simp [henabled]), .pass henabled⟩
  | true =>
    have hp : p = s.scan.plane := by
      simp only [patchEnabled, Bool.and_eq_true, decide_eq_true_eq] at henabled
      exact henabled.2
    subst hp
    exact ⟨_, if_pos henabled, .patched rfl⟩

omit h in
theorem exec_serDataPop_move : ∃ t, exec .serDataPop s = .next t ∧ Move s .serDataPop t := by
  cases hdtx : s.dtx with
  | nil => exact ⟨s, exec_serDataPop_of_empty hdtx, .pass (by simp [hasStep, hdtx])⟩
  | cons w rest => exact ⟨_, exec_serDataPop_of_dtx_cons hdtx, .scan (.pop hdtx)⟩

theorem Inv.exec_serRowTake_move : ∃ t, exec .serRowTake s = .next t ∧ Move s .serRowTake t := by
  by_cases hqueued : s.rtx = []
  · exact ⟨s, exec_serRowTake_of_waiting (.inr hqueued), .pass (by simp [hasStep, hqueued])⟩
  · obtain ⟨_, hat, _⟩ := h.at_of_rtx hqueued
    obtain ⟨d, hrtx⟩ := List.length_eq_one_iff.mp hat.rtx
    have hphase : s.phase = .idle := by
      have hbusy : s.phase.isBusy = false := hat.phase
      cases hp : s.phase with
      | idle => rfl
      | busy d => simp [hp, RowPhase.isBusy] at hbusy
    exact ⟨_, (serRowTakeShowsDescriptor s d [] hphase hrtx).1, .scan (.take (d := d) hat)⟩

theorem Inv.exec_serRowDone_move : ∃ t, exec .serRowDone s = .next t ∧ Move s .serRowDone t := by
  cases hphase : s.phase with
  | idle => exact ⟨s, exec_serRowDone_of_waiting (.inl hphase),
      .pass (by simp [hasStep, hphase, RowPhase.isBusy])⟩
  | busy d =>
    obtain ⟨_, hat, _⟩ := h.at_of_busy (by simp [hphase])
    have hempty : s.rrx = [] := hat.rrx_eq_nil (by decide)
    have hroom : s.rrx.length < s.build.serRxDepth := by rw [hempty]; exact h.build.rxDepth
    exact ⟨_, by rw [serRowDonePushesToken s d hphase hroom, hempty]; rfl, .scan (.done hat)⟩

/-- From a state with the invariant every operation completes, with one of the moves. -/
theorem Inv.exec_move (i : Instr) : ∃ t, exec i s = .next t ∧ Move s i t := by
  have host {t : State} (hagent : i.agent = .host) (ht : exec i s = .next t) : ∃ t, exec i s = .next t ∧ Move s i t :=
    ⟨t, ht, .host hagent (exec_host hagent ht)⟩
  cases i with
  | create | start | update | updateBgr | updateArea | busWr | busRd => exact host rfl rfl
  | packWrite => exact h.exec_packWrite_move
  | xferPixel => exact h.exec_xferPixel_move
  | xferFiller => exact h.exec_xferFiller_move
  | xferRow => exact h.exec_xferRow_move
  | xferOedone => exact h.exec_xferOedone_move
  | seqStep => exact h.exec_seqStep_move
  | patchShift p => exact exec_patchShift_move p
  | serDataPop => exact exec_serDataPop_move
  | serRowTake => exact h.exec_serRowTake_move
  | serRowDone => exact h.exec_serRowDone_move

theorem Inv.move_of_exec {i : Instr} (ht : exec i s = .next t) : Move s i t := by
  obtain ⟨u, hu, hmove⟩ := h.exec_move i
  obtain rfl : u = t := Outcome.next.inj (hu.symm.trans ht)
  exact hmove

end

end Sys2Proof.Machine
end

section
/-! The scan path of a running block: each move leaves it where it stands or takes it on to the next position, and the
filler flushes DTX before the row is sent (spec/20_memory.md R50, spec/42_transfer_chain.md R102,
spec/43_scan_stepper.md R109). -/

namespace Sys2Proof.Machine

variable {s t : State} {i : Instr} {p q : ScanPosition}

/-! ### Where a move leaves the path -/

/-- The path is as it was; of the data queue words may have been popped. -/
structure PathKept (s t : State) : Prop where
  pixel : t.chPixel = s.chPixel
  filler : t.chFiller = s.chFiller
  row : t.chRow = s.chRow
  oedone : t.chOedone = s.chOedone
  pending : t.status.intPend = s.status.intPend
  rtx : t.rtx = s.rtx
  rrx : t.rrx = s.rrx
  phase : t.phase = s.phase
  scan : t.scan = s.scan
  dtx : t.dtx.length ≤ s.dtx.length

theorem PathKept.at (h : PathKept s t) (hat : At p s) : At p t :=
  hat.congr (congrArg _ h.pixel) (congrArg _ h.filler) (congrArg _ h.row) (congrArg _ h.oedone) h.pending h.rtx h.rrx
    h.phase

/-- How many of the path's own operations a row period has still to take: one for each word of the two data runs and
one at each later position. -/
def rank (p : ScanPosition) (s : State) : Nat :=
  match p with
  | .pixelRun => s.chPixel.remain + s.build.fillerWords + 5
  | .fillerRun => s.chFiller.remain + 5
  | .rowSend => 5
  | .rowQueued => 4
  | .rowShown => 3
  | .tokenQueued => 2
  | .eventPending => 1

/-- The path's operation took it on: within the row period, or to the next one. -/
inductive PathMoved (p : ScanPosition) (s t : State) : Prop
  | within {q : ScanPosition} (hat : At q t) (hnext : q = p ∨ q = p.succ) (hrank : rank q t < rank p s)
      (hscan : t.scan = s.scan)
  | period (hp : p = .eventPending) (hat : At .pixelRun t) (hscan : t.scan = nextScan s)

theorem PathMoved.at (h : PathMoved p s t) : ∃ q, At q t ∧ (q = p ∨ q = p.succ) := by
  cases h with
  | within hat hnext => exact ⟨_, hat, hnext⟩
  | period hp hat => exact ⟨_, hat, .inr (by rw [hp]; rfl)⟩

/-- A path that moved is at another position or has fewer operations to take. -/
theorem PathMoved.ne (h : PathMoved p s t) (hat : At p s) : t ≠ s := by
  rintro rfl
  cases h with
  | within hat' _ hrank =>
    obtain rfl := hat.unique hat'
    exact absurd hrank (Nat.lt_irrefl _)
  | period hp hat' =>
    obtain rfl := hat.unique hat'
    cases hp

/-- While the block runs, CREATE and START fault, so no operation of the host touches the path (R119). -/
theorem HostEffect.pathKept (h : HostEffect s i t) (hcreated : s.status.created = true)
    (hrun : s.status.running = true) : PathKept s t := by
  cases h with
  | created hc => simp [hcreated] at hc
  | started _ hidle => simp [hrun] at hidle
  | pass | fault | halt | read | badRead | arguments | queued =>
    exact ⟨rfl, rfl, rfl, rfl, rfl, rfl, rfl, rfl, rfl, le_rfl⟩

/-- A data pop leaves the path as it is; any other move is its position's operation and takes the path on. -/
theorem ScanMove.path (h : Inv s) (hrun : s.status.running = true) (hat : At p s) (hm : ScanMove s i t) :
    i = .serDataPop ∧ PathKept s t ∨ i = p.operation ∧ PathMoved p s t := by
  have hfillerWords := h.fillerWords_pos
  cases hm with
  | @pixel _ m hp _ hremain _ =>
    obtain rfl := hat.unique hp
    refine .inr ⟨rfl, ?_⟩
    cases m with
    | zero =>
      refine .within (q := .fillerRun)
        ⟨rfl, decide_eq_true hfillerWords, hp.row, hp.oedone, hp.pending, hp.rtx, hp.rrx, hp.phase⟩ (.inr rfl) ?_ rfl
      simp only [rank, runOf, hremain, if_true]
      omega
    | succ m =>
      refine .within (q := .pixelRun) ⟨?_, rfl, hp.row, hp.oedone, hp.pending, hp.rtx, hp.rrx, hp.phase⟩
        (.inl rfl) ?_ rfl
      · exact decide_eq_true (Nat.succ_pos m)
      · simp only [rank, runOf, hremain]
        omega
  | @filler m hp _ hremain =>
    obtain rfl := hat.unique hp
    refine .inr ⟨rfl, ?_⟩
    cases m with
    | zero =>
      refine .within (q := .rowSend) ⟨hp.pixel, rfl, rfl, hp.oedone, hp.pending, hp.rtx, hp.rrx, hp.phase⟩
        (.inr rfl) ?_ rfl
      simp only [rank, hremain]
      omega
    | succ m =>
      refine .within (q := .fillerRun) ⟨hp.pixel, ?_, rfl, hp.oedone, hp.pending, hp.rtx, hp.rrx, hp.phase⟩
        (.inl rfl) ?_ rfl
      · exact decide_eq_true (Nat.succ_pos m)
      · simp only [rank, runOf, hremain]
        omega
  | row hp =>
    obtain rfl := hat.unique hp
    exact .inr ⟨rfl, .within (q := .rowQueued) ⟨hp.pixel, hp.filler, rfl, hp.oedone, hp.pending, rfl, hp.rrx, hp.phase⟩
      (.inr rfl) (by decide : 4 < 5) rfl⟩
  | take hp =>
    obtain rfl := hat.unique hp
    exact .inr ⟨rfl, .within (q := .rowShown) ⟨hp.pixel, hp.filler, hp.row, hp.oedone, hp.pending, rfl, hp.rrx, rfl⟩
      (.inr rfl) (by decide : 3 < 4) rfl⟩
  | done hp =>
    obtain rfl := hat.unique hp
    exact .inr ⟨rfl, .within (q := .tokenQueued) ⟨hp.pixel, hp.filler, hp.row, hp.oedone, hp.pending, hp.rtx, rfl, rfl⟩
      (.inr rfl) (by decide : 2 < 3) rfl⟩
  | oedone hp =>
    obtain rfl := hat.unique hp
    exact .inr ⟨rfl, .within (q := .eventPending) ⟨hp.pixel, hp.filler, hp.row, rfl, rfl, hp.rtx, rfl, hp.phase⟩
      (.inr rfl) (by decide : 1 < 2) rfl⟩
  | seq hp =>
    obtain rfl := hat.unique hp
    have hw : 0 < 2 * s.width := Nat.mul_pos (by decide) (h.geometry_bounds (h.running hrun)).1
    exact .inr ⟨rfl, .period rfl ⟨decide_eq_true hw, hp.filler, hp.row, rfl, rfl, hp.rtx, hp.rrx, hp.phase⟩ rfl⟩
  | pop hdtx =>
    refine .inl ⟨rfl, rfl, rfl, rfl, rfl, rfl, rfl, rfl, rfl, rfl, ?_⟩
    rw [hdtx]
    exact Nat.le_succ _

/-- While the block runs, a move leaves the path as it is, or is the position's own operation and takes it on. -/
theorem Move.path (h : Inv s) (hrun : s.status.running = true) (hat : At p s) (hm : Move s i t) :
    PathKept s t ∨ i = p.operation ∧ PathMoved p s t := by
  cases hm with
  | pass => exact .inl ⟨rfl, rfl, rfl, rfl, rfl, rfl, rfl, rfl, rfl, le_rfl⟩
  | host _ he => exact .inl (he.pathKept (h.running hrun) hrun)
  | packed | patched => exact .inl ⟨rfl, rfl, rfl, rfl, rfl, rfl, rfl, rfl, rfl, le_rfl⟩
  | scan hs => exact (hs.path h hrun hat).imp_left And.right

theorem ScanPosition.operation_cases (p : ScanPosition) : p.operation.agent ≠ .host ∧ p.operation ≠ .packWrite ∧
    p.operation ≠ .serDataPop ∧ ∀ plane, p.operation ≠ .patchShift plane := by
  cases p <;> exact ⟨nofun, nofun, nofun, nofun⟩

/-- The position's own operation takes the path on where it is enabled. -/
theorem Move.path_of_operation (h : Inv s) (hrun : s.status.running = true) (hat : At p s)
    (henabled : hasStep p.operation s = true) (hm : Move s p.operation t) : PathMoved p s t := by
  obtain ⟨hagent, hpack, hpop, hpatch⟩ := p.operation_cases
  cases hm with
  | pass hdisabled => simp [henabled] at hdisabled
  | host hhost => exact absurd hhost hagent
  | packed hi => exact absurd hi hpack
  | patched hi => exact absurd hi (hpatch _)
  | scan hs =>
    obtain ⟨hi, _⟩ | ⟨_, hmoved⟩ := hs.path h hrun hat
    · exact absurd hi hpop
    · exact hmoved

/-! ### DTX flushed by the filler -/

/-- A running block whose CH_PIXEL has no run in progress has only filler words behind the last genuine one (R143). -/
theorem Inv.flushed (h : Inv s) (hrun : s.status.running = true) (hidle : s.chPixel.active = false) : Flushed s := by
  obtain ⟨p, hat, hflushed⟩ := h.position hrun
  exact hflushed (of_decide_eq_false (hat.pixel.symm.trans hidle))

theorem ScanMove.flushed (h : Inv s) (hrun : s.status.running = true) (hm : ScanMove s i t)
    (hidle : t.chPixel.active = false) : Flushed t := by
  cases hm with
  | @pixel _ m _ _ _ _ =>
    obtain rfl : m = 0 := Nat.eq_zero_of_not_pos (of_decide_eq_false hidle)
    simp [Flushed, runOf]
  | @filler m hp _ hremain =>
    have hflushed := h.flushed hrun hidle
    obtain ⟨_, hle, _⟩ := h.remain_le (h.running hrun)
    have hsent : s.build.fillerWords - m = s.build.fillerWords - s.chFiller.remain + 1 := by omega
    intro w hw
    simp only [runOf, hsent, List.length_append, List.length_singleton, Nat.add_sub_add_right] at hw
    rw [List.drop_append_of_le_length (Nat.sub_le _ _), List.mem_append, List.mem_singleton] at hw
    obtain hw | rfl := hw
    · exact hflushed w hw
    · rfl
  | row hp => exact h.flushed hrun hidle
  | take hp => exact h.flushed hrun hidle
  | done hp => exact h.flushed hrun hidle
  | oedone hp => exact h.flushed hrun hidle
  | seq hp =>
    have hw : ¬ 0 < 2 * s.width := of_decide_eq_false hidle
    have := (h.geometry_bounds (h.running hrun)).1
    omega
  | @pop head rest hdtx =>
    have hflushed := h.flushed hrun hidle
    intro w hw
    refine hflushed w ?_
    rw [hdtx]
    obtain hall | hsome := Nat.lt_or_ge rest.length (s.build.fillerWords - s.chFiller.remain)
    · rw [List.length_cons, Nat.sub_eq_zero_of_le (Nat.succ_le_of_lt hall)]
      exact List.mem_cons_of_mem _ (List.mem_of_mem_drop hw)
    · rw [List.length_cons, Nat.succ_sub hsome]
      exact hw

/-! ### The obligations -/

/-- Settles O50: an operation keeps the path, or is the position's own and moves it to the next one or along its run. -/
theorem scanPathMovesInOrder : Obligations.ScanPathMovesInOrder := by
  intro s t p i hinv hrun hat _ h
  obtain hkept | ⟨hi, hmoved⟩ := (hinv.move_of_exec h).path hinv hrun hat
  · exact ⟨p, hkept.at hat, .inl rfl⟩
  · obtain ⟨q, hq, hnext⟩ := hmoved.at
    exact ⟨q, hq, hnext.imp_right fun hsucc => ⟨hsucc, hi⟩⟩

end Sys2Proof.Machine
end

section
/-! The invariant: right after reset, and kept by every move, by the host's store, the platform's pools and a reset; and
what it gives at once (spec/43_scan_stepper.md R105, R110, R111, spec/70_reset_and_hazards.md R138). -/

namespace Sys2Proof.Machine

open Host

variable {s t : State} {i : Instr}

/-! ### The scan position in range -/

/-- A position in range is one of the cycle's. -/
theorem indices_eq_cyclePos {p : ScanPos} {half : Nat} (hrow : p.row.toNat < half) (hplane : p.plane.toNat < 10) :
    p.indices = cyclePos half (half * p.plane.toNat + p.row.toNat) := by
  have hhalf : 0 < half := Nat.zero_lt_of_lt hrow
  rw [cyclePos, Nat.mul_add_mod, Nat.mod_eq_of_lt hrow, Nat.mul_add_div hhalf, Nat.div_eq_of_lt hrow, Nat.add_zero,
    Nat.mod_eq_of_lt hplane, ScanPos.indices]

/-- R105: the next position is in range again. -/
theorem Inv.nextScan_lt (h : Inv s) (hcreated : s.status.created = true) :
    (nextScan s).row.toNat < s.half ∧ (nextScan s).plane.toNat < 10 := by
  have hpos : 0 < s.half := Nat.zero_lt_of_lt (h.row hcreated)
  have hnext := nextScan_indices hpos (h.half_le hcreated) (indices_eq_cyclePos (h.row hcreated) h.plane)
  obtain ⟨hrow, hplane⟩ := Prod.mk.inj hnext
  exact ⟨hrow ▸ Nat.mod_lt _ hpos, hplane ▸ Nat.mod_lt _ (by decide)⟩

/-! ### What the scan path's moves keep -/

theorem runOf_runOk {c : ChanId} {l : Loc} {m : Nat} (hm : m ≤ (harness s.width s.build.fillerWords c).count) :
    RunOk (runOf s c l m) := ⟨rfl, hm⟩

/-- Only a running block's scan path stands at a position. -/
theorem Inv.running_of_at {p : ScanPosition} (h : Inv s) (hat : At p s) : s.status.running = true := by
  by_contra hidle
  have hquiet := h.quiet (Bool.eq_false_iff.mpr hidle)
  have hpending : p ≠ .eventPending := of_decide_eq_false (hat.pending.symm.trans hquiet.pending)
  exact of_decide_eq_false (hat.oedone.symm.trans hquiet.oedone) hpending

section
variable (h : Inv s) (hm : ScanMove s i t)
include h hm

theorem ScanMove.running : s.status.running = true := by
  cases hm with
  | pixel hat | filler hat | row hat | take hat | done hat | oedone hat | seq hat => exact h.running_of_at hat
  | pop hdtx =>
    by_contra hidle
    simp [(h.quiet (Bool.eq_false_iff.mpr hidle)).dtx] at hdtx

theorem ScanMove.configured : Configured t := by
  have conf := h.configured (h.running (hm.running h))
  cases hm with
  | pixel => exact ⟨rfl, rfl, conf.row, conf.oedone⟩
  | filler => exact ⟨conf.pixel, rfl, rfl, conf.oedone⟩
  | row => exact ⟨conf.pixel, conf.filler, rfl, conf.oedone⟩
  | oedone => exact ⟨conf.pixel, conf.filler, conf.row, rfl⟩
  | seq => exact ⟨rfl, conf.filler, conf.row, rfl⟩
  | take | done | pop => exact ⟨conf.pixel, conf.filler, conf.row, conf.oedone⟩

theorem ScanMove.runs : RunOk t.chPixel ∧ RunOk t.chFiller ∧ RunOk t.chRow ∧ RunOk t.chOedone := by
  obtain ⟨hpixel, hfiller, hrow, hoedone⟩ := h.runs
  obtain ⟨hpixelLe, hfillerLe, _⟩ := h.remain_le (h.running (hm.running h))
  cases hm with
  | pixel _ _ hremain =>
    refine ⟨runOf_runOk ?_, runOf_runOk ?_, hrow, hoedone⟩ <;> simp only [harness]
    · omega
    · split <;> omega
  | filler _ _ hremain =>
    refine ⟨hpixel, runOf_runOk ?_, runOf_runOk ?_, hoedone⟩ <;> simp only [harness]
    · omega
    · split <;> omega
  | row => exact ⟨hpixel, hfiller, runOf_runOk (Nat.zero_le _), hoedone⟩
  | oedone => exact ⟨hpixel, hfiller, hrow, runOf_runOk (Nat.zero_le _)⟩
  | seq => exact ⟨runOf_runOk le_rfl, hfiller, hrow, runOf_runOk le_rfl⟩
  | take | done | pop => exact ⟨hpixel, hfiller, hrow, hoedone⟩

theorem ScanMove.pixelRead : PixelRead t := by
  cases hm with
  | pixel _ _ _ hread =>
    refine fun _ => congrArg Loc.fb ?_
    simp only [State.width, runOf] at hread ⊢
    omega
  | seq =>
    refine fun _ => congrArg Loc.fb ?_
    simp only [State.width, runOf]
    exact (Nat.sub_eq_of_eq_add (by ring)).symm
  | filler | row | take | done | oedone | pop => exact h.pixelRead

theorem ScanMove.depth : t.dtx.length ≤ s.build.serTxDepth := by
  cases hm with
  | pixel _ hroom =>
    rw [List.length_append]
    exact hroom
  | filler _ hroom =>
    rw [List.length_append]
    exact hroom
  | pop hdtx =>
    refine Nat.le_trans ?_ h.depth
    rw [hdtx]
    exact Nat.le_succ _
  | row | take | done | oedone | seq => exact h.depth

/-- SCANPOS stays in range, DESC follows it and SHAMT is a plane. -/
theorem ScanMove.scanState : t.scan.row.toNat < s.half ∧ t.scan.plane.toNat < 10 ∧
    t.desc = descOf t.scan.row t.scan.plane ∧ t.shamt.toNat < 10 := by
  have hcreated := h.running (hm.running h)
  cases hm with
  | seq =>
    obtain ⟨hrow, hplane⟩ := h.nextScan_lt hcreated
    refine ⟨hrow, hplane, rfl, ?_⟩
    dsimp only
    split
    · exact hplane
    · exact h.shamt
  | pixel | filler | row | take | done | oedone | pop => exact ⟨h.row hcreated, h.plane, h.desc, h.shamt⟩

theorem ScanMove.position : ∃ p, At p t ∧ (p ≠ .pixelRun → Flushed t) := by
  have hrun := hm.running h
  obtain ⟨p, hat, _⟩ := h.position hrun
  obtain ⟨q, hq⟩ : ∃ q, At q t := by
    obtain ⟨_, hkept⟩ | ⟨_, hmoved⟩ := hm.path h hrun hat
    · exact ⟨p, hkept.at hat⟩
    · exact hmoved.at.imp fun _ hq => hq.1
  exact ⟨q, hq, fun hne => hm.flushed h hrun (hq.pixel.trans (decide_eq_false hne))⟩

end

/-! ### The invariant, move by move -/

/-- The invariant passes over a step that changes the scan path and the scan state only and leaves the block running. -/
theorem Inv.frameScan (h : Inv s) (hcreated : s.status.created = true)
    (ht : t = { s with
      status := { s.status with running := true, intPend := t.status.intPend }
      scan := t.scan, desc := t.desc, shamt := t.shamt, sink := t.sink
      chPixel := t.chPixel, chFiller := t.chFiller, chRow := t.chRow, chOedone := t.chOedone
      dtx := t.dtx, rtx := t.rtx, rrx := t.rrx, phase := t.phase, popped := t.popped, ds := t.ds, rs := t.rs
      draws := t.draws })
    (hscan : t.scan.row.toNat < s.half ∧ t.scan.plane.toNat < 10 ∧ t.desc = descOf t.scan.row t.scan.plane ∧
      t.shamt.toNat < 10)
    (hconfigured : Configured t)
    (hruns : RunOk t.chPixel ∧ RunOk t.chFiller ∧ RunOk t.chRow ∧ RunOk t.chOedone)
    (hread : PixelRead t) (hdepth : t.dtx.length ≤ s.build.serTxDepth)
    (hposition : ∃ p, At p t ∧ (p ≠ .pixelRun → Flushed t)) : Inv t := by
  have hb : t.build = s.build := by rw [ht]
  have hcfg : t.cfg = s.cfg := by rw [ht]
  have hpj : t.pj = s.pj := by rw [ht]
  have hro : t.roster = s.roster := by rw [ht]
  have hst : t.status = { s.status with running := true, intPend := t.status.intPend } := by rw [ht]
  have hc : t.status.created = s.status.created := by rw [hst]
  have hrun : t.status.running = true := by rw [hst]
  have hwords : t.fbWords = s.fbWords := by simp only [State.fbWords, State.width, State.height, hcfg]
  obtain ⟨hrow, hplane, hdesc, hshamt⟩ := hscan
  exact {
    build := hb ▸ h.build
    mem := by rw [ht]; exact h.mem
    fb := by rw [hwords, ht]; exact h.fb
    busy := by rw [hst, hpj]; exact h.busy
    cause := by rw [hst, ht]; exact h.cause
    jobs := by rw [hpj, hwords]; exact h.jobs
    running := fun _ => hc.trans hcreated
    notHalted := by rw [hst]; exact h.notHalted
    intEn := by rw [hst]; exact h.intEn
    valid := by rw [hst, hro]; exact h.valid
    geometry := by simp only [hc, hb, State.width, State.height, hcfg]; exact h.geometry
    row := fun _ => by simpa only [State.half, State.height, hcfg] using hrow
    plane := hplane
    desc := hdesc
    shamt := hshamt
    freeCh := by rw [hb, ht]; exact h.freeCh
    freeSm := by rw [hb, ht]; exact h.freeSm
    roster := fun _ => (h.roster hcreated).congr hro hb
    configured := fun _ => hconfigured
    runs := hruns
    pixelRead := hread
    depth := hb ▸ hdepth
    path := by rw [if_pos hrun]; exact hposition }

theorem ScanMove.inv (h : Inv s) (hm : ScanMove s i t) : Inv t := by
  have hrun := hm.running h
  have hframe : t = { s with
      status := { s.status with running := true, intPend := t.status.intPend }
      scan := t.scan, desc := t.desc, shamt := t.shamt, sink := t.sink
      chPixel := t.chPixel, chFiller := t.chFiller, chRow := t.chRow, chOedone := t.chOedone
      dtx := t.dtx, rtx := t.rtx, rrx := t.rrx, phase := t.phase, popped := t.popped, ds := t.ds, rs := t.rs
      draws := t.draws } := by
    rw [← hrun]
    cases hm <;> rfl
  exact h.frameScan (h.running hrun) hframe (hm.scanState h) (hm.configured h) (hm.runs h) (hm.pixelRead h)
    (hm.depth h) (hm.position h)

/-- The invariant passes over a step that changes only the argument registers, the host's read value, host memory, the
frame buffer, the job with BUSY, SHAMT and the draw counter. -/
theorem Inv.frameOffPath (h : Inv s)
    (ht : t = { s with
      status := { s.status with busy := t.status.busy }
      geom := t.geom, srcAddr := t.srcAddr, srcLen := t.srcLen, areaP1 := t.areaP1, areaP2 := t.areaP2
      shamt := t.shamt, fb := t.fb, pj := t.pj, mem := t.mem, rdata := t.rdata, draws := t.draws })
    (hmem : Memory.wf t.mem = true) (hfb : FrameBuffer.wf s.fbWords t.fb = true)
    (hbusy : t.status.busy = !t.pj.isEmpty) (hjobs : ∀ e ∈ t.pj, e.fbIndex < s.fbWords)
    (hshamt : t.shamt.toNat < Config.bitDepth) : Inv t := by
  have hcause : t.cause = .noFault ↔ t.status.fault = false := by
    rw [ht]
    exact h.cause
  refine h.frame ?_ ?_ hmem hfb hbusy hcause hjobs ?_ ?_ ?_ hshamt ?_ ?_ ?_ ?_ ?_ ?_ ?_ ?_ ?_ ?_ ?_
  all_goals rw [ht]

theorem zero_lt_bitDepth : (0 : BitVec 4).toNat < Config.bitDepth := by decide

/-- CREATE's block is quiet, configured and holds what it claimed. -/
theorem Inv.created (h : Inv s) (hcreated : s.status.created = false) (hhalted : s.status.halted = false)
    (hlegal : legalGeometry s.build.fbCapacity (lowHalf s.geom) (highHalf s.geom) = true)
    (hslots : 2 ≤ s.freeSm.length) (hchannels : 4 ≤ s.freeCh.length) : Inv (created s) := by
  have hidle : s.status.running = false := by
    by_contra hrun
    simp [h.running (by simpa using hrun)] at hcreated
  have hquiet := h.quiet hidle
  have hpj := h.pj_of_not_created hcreated
  have channels := created_channels h.freeCh.1 hchannels
    fun c hc => Nat.lt_of_lt_of_le (h.freeCh.2 c hc) h.build.channels.2
  have slots := created_slots h.freeSm.1 hslots fun c hc => Nat.lt_of_lt_of_le (h.freeSm.2 c hc) h.build.slots.2
  have hheight : 0 < highHalf s.geom / 2 := by
    simp only [legalGeometry, Bool.and_eq_true, decide_eq_true_eq] at hlegal
    omega
  exact {
    build := h.build
    mem := h.mem
    fb := rfl
    busy := h.busy
    cause := h.cause
    jobs := fun e he => absurd (hpj ▸ he : e ∈ []) List.not_mem_nil
    running := fun _ => rfl
    notHalted := fun _ => hhalted
    intEn := rfl
    valid := rfl
    geometry := hlegal
    row := fun _ => hheight
    plane := zero_lt_bitDepth
    desc := rfl
    shamt := zero_lt_bitDepth
    freeCh := ⟨channels.leftDistinct, fun c hc => h.freeCh.2 c ((channels.mem_left c).mp hc).1⟩
    freeSm := ⟨slots.leftDistinct, fun c hc => h.freeSm.2 c ((slots.mem_left c).mp hc).1⟩
    roster := fun _ => ⟨channels.distinct, smData_ne_smRow rfl slots.distinct,
      fun c hc => h.freeCh.2 c (channels.fromPool c hc), fun c hc => h.freeSm.2 c (slots.fromPool c hc)⟩
    configured := fun _ => ⟨rfl, rfl, rfl, rfl⟩
    runs := ⟨⟨rfl, Nat.zero_le _⟩, ⟨rfl, Nat.zero_le _⟩, ⟨rfl, Nat.zero_le _⟩, ⟨rfl, Nat.zero_le _⟩⟩
    pixelRead := nofun
    depth := h.depth
    path := by
      have hidle : (Machine.created s).status.running = false := hidle
      rw [if_neg (by rw [hidle]; decide)]
      exact ⟨rfl, rfl, rfl, rfl, hquiet.pending, hquiet.dtx, hquiet.rtx, hquiet.rrx, hquiet.phase, rfl⟩ }

/-- START's block stands at the first position, its run at the first word of row 0. -/
theorem Inv.started (h : Inv s) (hcreated : s.status.created = true) (hidle : s.status.running = false) : Inv { s with
    desc := descOf s.scan.row s.scan.plane
    shamt := 0
    chRow := { s.chRow with read := .desc }
    chOedone := { s.chOedone with write := .sink, active := true, remain := s.chOedone.count }
    chPixel := { s.chPixel with read := .fb 0, active := true, remain := s.chPixel.count }
    status := { s.status with running := true } } := by
  rw [h.chRow_reread hcreated, h.chOedone_rearmed hcreated, h.chPixel_rearmed hcreated]
  have hquiet := h.quiet hidle
  have conf := h.configured hcreated
  have hw : 0 < 2 * s.width := Nat.mul_pos (by decide) (h.geometry_bounds hcreated).1
  refine h.frameScan hcreated rfl ⟨h.row hcreated, h.plane, rfl, zero_lt_bitDepth⟩ ⟨rfl, conf.filler, conf.row, rfl⟩
    ⟨runOf_runOk le_rfl, h.runs.2.1, h.runs.2.2.1, runOf_runOk le_rfl⟩ (fun _ => congrArg Loc.fb ?_) h.depth
    ⟨.pixelRun, ⟨decide_eq_true hw, hquiet.filler, hquiet.row, rfl, hquiet.pending, congrArg List.length hquiet.rtx,
      congrArg List.length hquiet.rrx, congrArg RowPhase.isBusy hquiet.phase⟩, nofun⟩
  simp only [hquiet.scan, runOf, State.width]
  exact (Nat.sub_eq_zero_of_le (by simp)).symm

theorem HostEffect.inv (h : Inv s) (he : HostEffect s i t) : Inv t := by
  cases he with
  | pass => exact h
  | fault hc => exact h.raise hc
  | halt hcreated =>
    have hnot {P : Prop} (hc : s.status.created = true) : P := absurd hc (by simp [hcreated])
    have hhalted : Inv { s with status := { s.status with halted := true } } :=
      { h with
        notHalted := hnot, roster := hnot, configured := hnot
        path := ScanPath.congr h.path rfl rfl rfl rfl rfl rfl rfl rfl rfl rfl rfl rfl }
    exact hhalted.raise (by decide)
  | read => exact h.frameOffPath rfl h.mem h.fb h.busy h.jobs h.shamt
  | badRead =>
    have h := h.raise (c := .badReg) (by decide)
    exact h.frameOffPath rfl h.mem h.fb h.busy h.jobs h.shamt
  | arguments => exact h.frameOffPath rfl h.mem h.fb h.busy h.jobs h.shamt
  | created hcreated hhalted hlegal hslots hchannels => exact h.created hcreated hhalted hlegal hslots hchannels
  | started hcreated hidle => exact h.started hcreated hidle
  | queued hcreated hwords hnonempty =>
    obtain ⟨hw, hh, heven, _⟩ := h.geometry_bounds hcreated
    refine h.frameOffPath rfl h.mem h.fb ?_ (hwords heven) h.shamt
    simpa using hnonempty hw hh

theorem Move.inv (h : Inv s) (hm : Move s i t) : Inv t := by
  cases hm with
  | pass => exact h
  | host _ he => exact he.inv h
  | @packed e rest _ hpj hword =>
    have hbusy : (if rest.isEmpty then false else s.status.busy) = !rest.isEmpty := by
      cases rest with
      | nil => rfl
      | cons e' rest => simp [h.busy, hpj]
    refine h.frameOffPath rfl h.mem (cellsWf_cellWrite hword _ h.fb) hbusy (fun e' he => h.jobs e' ?_) h.shamt
    rw [hpj]
    exact List.mem_cons_of_mem _ he
  | patched => exact h.frameOffPath rfl h.mem h.fb h.busy h.jobs h.plane
  | scan hs => exact hs.inv h

/-! ### From outside -/

theorem Inv.hostStore (h : Inv s) (a : BitVec 32) (v : Byte) : Inv (hostStore a v s) := by
  refine h.frameOffPath rfl (hostStore_memory_wf h.mem) h.fb ?_ (fun e he => ?_) h.shamt
  · simpa using h.busy
  · obtain ⟨e', he', heq⟩ := mem_noteStores he
    rw [heq]
    exact h.jobs e' he'

theorem Inv.setPools (h : Inv s) (channels slots : List Nat) : Inv (setPools channels slots s) := by
  obtain ⟨hchDistinct, hchMem⟩ := poolOf_spec s.build.numCh channels (heldChannels s.roster)
  obtain ⟨hsmDistinct, hsmMem⟩ := poolOf_spec s.build.numSm slots (heldSlots s.roster)
  exact { h with
    roster := fun hc => (h.roster hc).congr rfl rfl
    configured := fun hc => (h.configured hc).congr rfl rfl rfl rfl rfl rfl
    freeCh := ⟨hchDistinct, fun c hc => ((hchMem c).mp hc).1⟩
    freeSm := ⟨hsmDistinct, fun c hc => ((hsmMem c).mp hc).1⟩
    path := ScanPath.congr h.path rfl rfl rfl rfl rfl rfl rfl rfl rfl rfl rfl rfl }

/-- The block right after reset, whatever the parameters, the pools and host memory. -/
theorem Inv.of_afterReset {b : Build} {channels slots : List Nat} {draw : Nat} {mem : List Cell} {v : Word}
    {input : List Input} (hb : b.Admissible) (hmem : Memory.wf mem = true)
    (hch : channels.Nodup ∧ ∀ c ∈ channels, c < b.numCh) (hsm : slots.Nodup ∧ ∀ c ∈ slots, c < b.numSm) :
    Inv { State.afterReset b channels slots draw with mem := mem, rdata := v, input := input } where
  build := hb
  mem := hmem
  fb := rfl
  busy := rfl
  cause := iff_of_true rfl rfl
  jobs := nofun
  running := nofun
  notHalted := nofun
  intEn := rfl
  valid := rfl
  geometry := rfl
  row := nofun
  plane := zero_lt_bitDepth
  desc := (by decide : (0x000000C0 : Word) = descOf 0 0)
  shamt := zero_lt_bitDepth
  freeCh := hch
  freeSm := hsm
  roster := nofun
  configured := nofun
  runs := ⟨⟨rfl, Nat.zero_le _⟩, ⟨rfl, Nat.zero_le _⟩, ⟨rfl, Nat.zero_le _⟩, ⟨rfl, Nat.zero_le _⟩⟩
  pixelRead := nofun
  depth := Nat.zero_le _
  path := ⟨rfl, rfl, rfl, rfl, rfl, rfl, rfl, rfl, rfl, rfl⟩

theorem poolOf_bounds (limit : Nat) (wanted claimed : List Nat) :
    (poolOf limit wanted claimed).Nodup ∧ ∀ c ∈ poolOf limit wanted claimed, c < limit :=
  ⟨(poolOf_spec limit wanted claimed).1, fun c hc => (((poolOf_spec limit wanted claimed).2 c).mp hc).1⟩

theorem Inv.platformReset (h : Inv s) : Inv (platformReset s) :=
  .of_afterReset h.build h.mem (poolOf_bounds ..) (poolOf_bounds ..)

/-- Settles O8: the reset state is the block after reset with an admissible build, and its counts and shift are 0. -/
theorem resetStateKeepsInvariant : Obligations.ResetStateKeepsInvariant :=
  ⟨.of_afterReset (mem := []) (v := 0) (input := []) Config.build_admissible rfl (poolOf_bounds ..) (poolOf_bounds ..),
    rfl, rfl⟩

/-! ### One step -/

/-- From a state with the invariant, an entry that goes on is a move, a store, a change of the pools or a reset. A word
that is no command is a CMD write, so the host's. -/
theorem Inv.runInput_cases {x : Input} (h : Inv s) (hx : runInput x s = .next t) :
    (∃ i, Move s i t) ∨ (∃ a v, t = Machine.hostStore a v s) ∨
      (∃ channels slots, t = Machine.setPools channels slots s) ∨ (x = .reset ∧ t = Machine.platformReset s) := by
  cases x with
  | op e =>
    obtain ⟨i, _, hexec⟩ | rfl := runEncoded_next hx
    · exact .inl ⟨i, h.move_of_exec hexec⟩
    · exact .inl ⟨.create, .host rfl (rejectCommand_effect s)⟩
  | store a v => exact .inr (.inl ⟨a, v, (Outcome.next.inj hx).symm⟩)
  | pools channels slots => exact .inr (.inr (.inl ⟨channels, slots, (Outcome.next.inj hx).symm⟩))
  | reset => exact .inr (.inr (.inr ⟨rfl, (Outcome.next.inj hx).symm⟩))

/-- A step with nothing listed stays; any other runs the head of the list on the state with the list moved on. -/
theorem step_next (h : step s = .next t) :
    t = s ∨ ∃ x rest, s.input = x :: rest ∧ runInput x { s with input := rest } = .next t := by
  unfold step runNext at h
  split at h
  next => exact .inl (Outcome.next.inj h).symm
  next x rest hinput => exact .inr ⟨x, rest, hinput, h⟩

/-- A property of the states with the invariant that moving the list on, every move, the host's store, the pools and a
reset keep, every step keeps. -/
theorem Inv.step_keeps {Q : State → Prop} (h : Inv s) (hq : Q s) (hstep : step s = .next t)
    (hinput : ∀ {s} rest, Q s → Q { s with input := rest })
    (hmove : ∀ {s t i}, Inv s → Q s → Move s i t → Q t)
    (hstore : ∀ {s} a v, Inv s → Q s → Q (Machine.hostStore a v s))
    (hpools : ∀ {s} channels slots, Inv s → Q s → Q (Machine.setPools channels slots s))
    (hreset : ∀ {s}, Inv s → Q s → Q (Machine.platformReset s)) : Q t := by
  obtain rfl | ⟨x, rest, _, hx⟩ := step_next hstep
  · exact hq
  · have h := h.withInput rest
    have hq := hinput rest hq
    obtain ⟨i, hm⟩ | ⟨a, v, rfl⟩ | ⟨channels, slots, rfl⟩ | ⟨_, rfl⟩ := h.runInput_cases hx
    · exact hmove h hq hm
    · exact hstore a v h hq
    · exact hpools channels slots h hq
    · exact hreset h hq

/-- Settles O47: every move keeps the invariant, and so does everything that acts from outside. -/
theorem stepKeepsInvariant : Obligations.StepKeepsInvariant := by
  intro s t h hstep
  exact h.step_keeps (Q := Inv) h hstep (fun rest h => h.withInput rest) (fun h _ hm => hm.inv h)
    (fun a v h _ => h.hostStore a v) (fun channels slots h _ => h.setPools channels slots) (fun h _ => h.platformReset)

end Sys2Proof.Machine
end

section
/-! What the invariant gives, and what the moves keep beside it: no step stops or records INTERNAL, the lanes stay
paired, SHAMT follows PLANE, the frame buffer and SINK have one writer each, the descriptor sent is the row's, and the
running scan never deadlocks (spec/41_scan_program.md R88, spec/43_scan_stepper.md R108 to R111, spec/10_state.md R29, R31,
spec/70_reset_and_hazards.md R142, R143, R149). -/

namespace Sys2Proof.Machine

open Host

variable {s t : State} {i : Instr} {p : ScanPosition}

/-! ### No stop, and no INTERNAL -/

/-- Every operation completes, so an entry can only be refused by the decoder. -/
theorem Inv.runInput_ne_fault (h : Inv s) (x : Input) (f : Fault) : runInput x s ≠ .fault f := by
  cases x with
  | op e =>
    rw [runInput, runEncoded]
    split
    next i _ =>
      obtain ⟨t, ht, _⟩ := h.exec_move i
      rw [ht]
      nofun
    all_goals nofun
  | store | pools | reset => nofun

/-- A block that does not run has no active channel, so START's triggers find none (R110, R139). -/
theorem HostEffect.cause (h : Inv s) (he : HostEffect s i t) (hcause : t.cause = .internal) : s.cause = .internal := by
  cases he with
  | fault _ hinternal =>
    rw [raiseFault_cause] at hcause
    split at hcause
    · exact hcause
    · obtain ⟨hidle, hactive⟩ := hinternal hcause
      have hquiet := h.quiet hidle
      simp [hquiet.oedone, hquiet.pixel] at hactive
  | halt | badRead =>
    simp only [raiseFault_cause] at hcause
    split at hcause
    · exact hcause
    · cases hcause
  | pass | read | arguments | created | started | queued => exact hcause

theorem Move.cause (h : Inv s) (hm : Move s i t) (hcause : t.cause = .internal) : s.cause = .internal := by
  cases hm with
  | host _ he => exact he.cause h hcause
  | scan hs => cases hs <;> exact hcause
  | pass | packed | patched => exact hcause

/-- Settles O48: every move completes, and none of them records INTERNAL. -/
theorem scanPathNeverFails : Obligations.ScanPathNeverFails := by
  intro s h
  refine ⟨fun f hstep => ?_, fun t hstep => ?_⟩
  · unfold step runNext at hstep
    split at hstep
    · cases hstep
    · exact (h.withInput _).runInput_ne_fault _ f hstep
  · exact h.step_keeps (Q := fun u => u.cause = .internal → s.cause = .internal) id hstep (fun _ hq => hq)
      (fun h hq hm hc => hq (hm.cause h hc)) (fun _ _ _ hq => hq) (fun _ _ _ hq => hq) nofun

/-! ### Lanes and shift -/

theorem HostEffect.lanesPaired (h : Inv s) (hpaired : LanesPaired s) (he : HostEffect s i t) : LanesPaired t := by
  cases he with
  | created hcreated =>
    have hidle : s.status.running = false := by
      by_contra hrun
      simp [h.running (by simpa using hrun)] at hcreated
    have hquiet := h.quiet hidle
    rw [LanesPaired, h.runs.1.remain_eq_zero hquiet.pixel, h.runs.2.1.remain_eq_zero hquiet.filler] at hpaired
    exact hpaired
  | started hcreated hidle =>
    rw [LanesPaired, h.runs.1.remain_eq_zero (h.quiet hidle).pixel] at hpaired
    rw [h.chPixel_rearmed hcreated]
    simp only [LanesPaired, runOf]
    omega
  | pass | fault | halt | read | badRead | arguments | queued => exact hpaired

/-- A word pushed is one that had still to come, a word popped one that was queued; a new run is of even length. -/
theorem ScanMove.lanesPaired (h : Inv s) (hpaired : LanesPaired s) (hm : ScanMove s i t) : LanesPaired t := by
  have heven := h.build.fillerEven
  rw [LanesPaired] at hpaired ⊢
  cases hm with
  | pixel hat _ hremain =>
    have hfiller := h.runs.2.1.remain_eq_zero hat.filler
    simp only [runOf, List.length_append, List.length_singleton]
    split <;> omega
  | filler _ _ hremain =>
    simp only [runOf, List.length_append, List.length_singleton]
    omega
  | seq hat =>
    have hpixel := h.runs.1.remain_eq_zero hat.pixel
    simp only [runOf]
    omega
  | pop hdtx =>
    rw [hdtx, List.length_cons] at hpaired
    simp only
    omega
  | row | take | done | oedone => exact hpaired

theorem Move.lanesPaired (h : Inv s) (hpaired : LanesPaired s) (hm : Move s i t) : LanesPaired t := by
  cases hm with
  | host _ he => exact he.lanesPaired h hpaired
  | scan hs => exact hs.lanesPaired h hpaired
  | pass | packed | patched => exact hpaired

/-- Settles O54: every move keeps the count's parity, and a reset empties it. -/
theorem stepKeepsLanesPaired : Obligations.StepKeepsLanesPaired := by
  intro s t h hpaired hstep
  exact h.step_keeps (Q := LanesPaired) hpaired hstep (fun _ hq => hq) (fun h hq hm => hm.lanesPaired h hq)
    (fun _ _ _ hq => hq) (fun _ _ _ hq => hq) (fun _ _ => rfl)

/-- CREATE sets both, START finds PLANE 0, PATCH_SHIFT takes PLANE, and the handler patches where PLANE changes. -/
theorem Move.shiftInStep (h : Inv s) (hshift : ShiftInStep s) (hm : Move s i t) : ShiftInStep t := by
  cases hm with
  | host _ he =>
    cases he with
    | created => rfl
    | started _ hidle => exact (congrArg ScanPos.plane (h.quiet hidle).scan).symm
    | pass | fault | halt | read | badRead | arguments | queued => exact hshift
  | patched => rfl
  | scan hs =>
    cases hs with
    | seq =>
      simp only [ShiftInStep]
      split
      next => rfl
      next hsame => exact hshift.trans (not_not.mp hsame).symm
    | pixel | filler | row | take | done | oedone | pop => exact hshift
  | pass | packed => exact hshift

/-- Settles O55: every move keeps it, and a reset sets both to 0. -/
theorem stepKeepsShiftInStep : Obligations.StepKeepsShiftInStep := by
  intro s t h hshift hstep
  exact h.step_keeps (Q := ShiftInStep) hshift hstep (fun _ hq => hq) (fun h hq hm => hm.shiftInStep h hq)
    (fun _ _ _ hq => hq) (fun _ _ _ hq => hq) (fun _ _ => rfl)

/-! ### One writer each -/

/-- Settles O59: of the moves of a created block only the packer's writes FB and only CH_OEDONE's writes SINK. -/
theorem onlyPackerWritesFrameBuffer : Obligations.OnlyPackerWritesFrameBuffer := by
  intro s t i h hcreated hexec
  cases h.move_of_exec hexec with
  | host _ he =>
    cases he with
    | created hc => simp [hcreated] at hc
    | pass | fault | halt | read | badRead | arguments | started | queued => exact ⟨fun _ _ => rfl, fun _ => rfl⟩
  | packed hi => exact ⟨fun hne => absurd hi hne, fun _ => rfl⟩
  | scan hs =>
    cases hs with
    | oedone => exact ⟨fun _ _ => rfl, fun hne => absurd rfl hne⟩
    | pixel | filler | row | take | done | seq | pop => exact ⟨fun _ _ => rfl, fun _ => rfl⟩
  | pass | patched => exact ⟨fun _ _ => rfl, fun _ => rfl⟩

/-! ### The row sent -/

/-- Past CH_FILLER's run DTX holds filler words only: there are at least as many of them as places (R143). -/
theorem Inv.dtx_flushed (h : Inv s) (hat : At p s) (hpixel : p ≠ .pixelRun) (hfiller : p ≠ .fillerRun) :
    ∀ w ∈ s.dtx, w = 0 := by
  have hflushed := h.flushed (h.running_of_at hat) (hat.pixel.trans (decide_eq_false hpixel))
  have hremain := h.runs.2.1.remain_eq_zero (hat.filler.trans (decide_eq_false hfiller))
  have hdepth : s.dtx.length ≤ s.build.fillerWords := h.depth.trans h.build.fillerDepth
  rwa [Flushed, hremain, Nat.sub_zero, Nat.sub_eq_zero_of_le hdepth, List.drop_zero] at hflushed

/-- Settles O53: CH_ROW sends DESC, which follows SCANPOS; CH_PIXEL reads inside the row's words; and past the filler's
run DTX is flushed. -/
theorem descriptorMatchesRowSent : Obligations.DescriptorMatchesRowSent := by
  intro s h hrun
  refine ⟨fun hat => ?sent, fun hat => ?read, fun p hat hpixel hfiller => h.dtx_flushed hat hpixel hfiller⟩
  case sent =>
    have hempty : s.rtx = [] := hat.rtx_eq_nil (by decide)
    refine ⟨_, exec_xferRow_sends (h.chRow_of_active hat.row) (by rw [hempty]; exact h.build.txDepth), ?_⟩
    simp only [hempty, List.nil_append, h.desc]
  case read =>
    obtain ⟨i, m, hfb, hremain, hrange, _⟩ := h.pixel_reads hat.pixel
    rw [hremain]
    exact ⟨i, hfb, hrange, Nat.succ_pos m, hremain ▸ (h.remain_le (h.running hrun)).1⟩

/-! ### No deadlock -/

/-- The operation of the position a block stands at is enabled, unless it is to push a data word and DTX is full. -/
theorem Inv.operation_enabled (h : Inv s) (hat : At p s) : hasStep p.operation s = true ∨
    ((p = .pixelRun ∨ p = .fillerRun) ∧ s.build.serTxDepth ≤ s.dtx.length) := by
  have hrun := h.running_of_at hat
  have hcreated := h.running hrun
  have hword {c : ChanId} (hactive : (chan c s).active = true) (hok : RunOk (chan c s))
      (hpace : paceHolds (chan c s).pace s = true) : transferEnabled c s = true :=
    transferEnabled_iff.mpr ⟨hactive, hok.remain_pos hactive, hpace⟩
  obtain ⟨hpixel, hfiller, hrow, hoedone⟩ := h.runs
  cases p with
  | pixelRun =>
    refine (Nat.lt_or_ge s.dtx.length s.build.serTxDepth).imp (fun hroom => ?_) fun hfull => ⟨.inl rfl, hfull⟩
    refine hword (c := .pixel) hat.pixel hpixel ?_
    rw [chan_pixel, h.chPixel_eq hcreated]
    exact decide_eq_true hroom
  | fillerRun =>
    refine (Nat.lt_or_ge s.dtx.length s.build.serTxDepth).imp (fun hroom => ?_) fun hfull => ⟨.inr rfl, hfull⟩
    refine hword (c := .filler) hat.filler hfiller ?_
    rw [chan_filler, h.chFiller_eq hcreated]
    exact decide_eq_true hroom
  | rowSend =>
    refine .inl (hword (c := .row) hat.row hrow ?_)
    rw [chan_row, h.chRow_eq hcreated]
    exact decide_eq_true (by rw [hat.rtx]; exact h.build.txDepth)
  | rowQueued =>
    refine .inl ?_
    have hqueued : s.rtx ≠ [] := List.ne_nil_of_length_pos (by rw [hat.rtx]; decide)
    simp [ScanPosition.operation, hasStep, hat.phase, hqueued]
  | rowShown =>
    refine .inl ?_
    have hroom : s.rrx.length < s.build.serRxDepth := by rw [hat.rrx]; exact h.build.rxDepth
    simp [ScanPosition.operation, hasStep, hat.phase, hroom]
  | tokenQueued =>
    refine .inl (hword (c := .oedone) hat.oedone hoedone ?_)
    rw [chan_oedone, h.chOedone_eq hcreated]
    exact decide_eq_true (by rw [hat.rrx]; decide)
  | eventPending => exact .inl ((h.eventEnabled_eq hrun).trans hat.pending)

/-- Settles O51: the position's operation moves the path, or DTX is full and its head can be popped. -/
theorem runningScanNeverDeadlocks : Obligations.RunningScanNeverDeadlocks := by
  intro s p h hrun hat
  obtain henabled | ⟨_, hfull⟩ := h.operation_enabled hat
  · obtain ⟨t, hexec, hm⟩ := h.exec_move p.operation
    exact ⟨p.operation, t, .inl rfl, hexec, (hm.path_of_operation h hrun hat henabled).ne hat⟩
  · obtain ⟨w, rest, hdtx⟩ := List.exists_cons_of_length_pos (Nat.lt_of_lt_of_le h.build.txDepth hfull)
    refine ⟨.serDataPop, _, .inr rfl, exec_serDataPop_of_dtx_cons hdtx, fun heq => ?_⟩
    exact absurd (congrArg State.popped heq) (Nat.succ_ne_self _)

end Sys2Proof.Machine
end

section
/-! The steps that run no move of the block: a decoded entry is its operation, and what a step does from outside
(spec/00_scope.md R12, spec/70_reset_and_hazards.md R138, R146, R151). -/

namespace Sys2Proof.Machine

open Host

variable {s : State}

/-- A listed entry runs on the state with the list moved past it. -/
theorem step_of_input {x : Input} {rest : List Input} (h : s.input = x :: rest) :
    step s = runInput x { s with input := rest } := by
  simp only [step, runNext, h]

/-- Settles O5: a decoded entry's run is its operation. -/
theorem stepRunsDecodedInstruction : Obligations.StepRunsDecodedInstruction := by
  intro s e rest i hinput hdecode
  rw [step_of_input hinput, runInput, runEncoded, hdecode]

/-- Settles O6: nothing listed, a store of one byte, and pools without what the block holds. -/
theorem stepTakesOutsideInputs : Obligations.StepTakesOutsideInputs := by
  intro s rest
  refine ⟨fun hinput => ?idle, fun a b hinput => ?store, fun channels slots hinput => ?pools⟩
  case idle => simp only [step, runNext, hinput]
  case store =>
    exact ⟨_, step_of_input hinput, rfl, memRead_hostStore_same a b _, fun a' ha => memRead_hostStore_ne ha b _, rfl⟩
  case pools =>
    exact ⟨_, step_of_input hinput, rfl, (poolOf_spec s.build.numCh channels (heldChannels s.roster)).2,
      (poolOf_spec s.build.numSm slots (heldSlots s.roster)).2⟩

/-- Each channel's record after reset is inactive with nothing to move, its other fields free values (R138). -/
theorem chan_afterReset (b : Build) (channels slots : List Nat) (draw : Nat) (c : ChanId) :
    ∃ n, chan c (.afterReset b channels slots draw) = { Config.freeChannel n with active := false, remain := 0 } := by
  cases c <;> exact ⟨_, rfl⟩

/-- Settles O7: the power-on state and the state after a platform reset are one block, but for the parameters, the pools
and the draws. -/
theorem resetLeavesResetValues : Obligations.ResetLeavesResetValues := by
  unfold Obligations.ResetLeavesResetValues
  intro asReset
  have hstatus : (Status.mk false false false false false false false).word = 0 := by decide
  have hcause : Cause.noFault.word = 0 := by decide
  have hcfg : (Geometry.mk 0 0).word = 0 := by decide
  have hscan : (ScanPos.mk 0 0).word = 0 := by decide
  have hshift : placeField 0 (0 : BitVec 4) = 0 := by decide
  have hroster : (Roster.mk 0 0 0 0 0 0 false).word = 0 := by decide
  have hreset (b : Build) (channels slots : List Nat) (draw : Nat) (mem : List Cell) (v : Word) (input : List Input) :
      asReset { State.afterReset b channels slots draw with mem := mem, rdata := v, input := input } :=
    ⟨hstatus, hcause, rfl, rfl, rfl, rfl, rfl, hcfg, hscan, rfl, hshift, hroster, paramWord_eq b,
      chan_afterReset b channels slots draw, rfl, rfl, rfl, rfl, rfl, rfl, rfl, rfl, draw, rfl, fun _ => rfl⟩
  refine ⟨hreset _ _ _ _ [] 0 [], fun s rest hinput => ?_⟩
  refine ⟨_, step_of_input hinput, hreset .., rfl, rfl, rfl, fun c hc hfree => ?_, fun c hc hfree => ?_⟩
  · exact ((poolOf_spec _ _ _).2 c).mpr ⟨hc, List.mem_append.mpr hfree, List.not_mem_nil⟩
  · exact ((poolOf_spec _ _ _).2 c).mpr ⟨hc, List.mem_append.mpr hfree, List.not_mem_nil⟩

end Sys2Proof.Machine
end

section
/-! The shift patch: where its own turn has an effect, and how often SHAMT changes in a scan cycle
(spec/41_scan_program.md R86, spec/43_scan_stepper.md R108). -/

namespace Sys2Proof.Machine

variable {s : State} {half : Nat} {f : Nat → State}

theorem patchEnabled_iff {p : BitVec 4} : patchEnabled p s = true ↔
    s.status.created = true ∧ s.status.halted = false ∧ p = s.scan.plane := by
  simp only [patchEnabled, Bool.and_eq_true, Bool.not_eq_true', decide_eq_true_eq, and_assoc]

/-- The plane after k + 1 steps of the cycle differs from the one after k exactly where a sweep ends (R107). -/
theorem cyclePos_plane_changes (half k : Nat) :
    (cyclePos half (k + 1)).2 ≠ (cyclePos half k).2 ↔ (k + 1) % half = 0 := by
  simp only [cyclePos, Nat.succ_div, Nat.dvd_iff_mod_eq_zero]
  split
  next hend => exact iff_of_true (by omega) hend
  next hin => exact iff_of_false (by simp) hin

/-- Of the first half * n steps of a cycle n end a sweep. -/
theorem countP_sweep_ends (hhalf : 0 < half) (n : Nat) :
    (List.range (half * n)).countP (fun k => decide ((k + 1) % half = 0)) = n := by
  obtain ⟨last, rfl⟩ := Nat.exists_eq_add_one.mpr hhalf
  have sweep : (List.range (last + 1)).countP (fun k => decide ((k + 1) % (last + 1) = 0)) = 1 := by
    have hinner : (List.range last).countP (fun k => decide ((k + 1) % (last + 1) = 0)) = 0 := by
      refine List.countP_eq_zero.mpr fun k hk => ?_
      rw [Nat.mod_eq_of_lt (Nat.succ_lt_succ (List.mem_range.mp hk))]
      simp
    rw [List.range_succ, List.countP_append, hinner]
    simp
  induction n with
  | zero => rfl
  | succ n ih =>
    have hshift (k : Nat) : ((last + 1) * n + k + 1) % (last + 1) = (k + 1) % (last + 1) := by
      rw [Nat.add_assoc, Nat.mul_add_mod]
    rw [Nat.mul_succ, List.range_add, List.countP_append, ih, List.countP_map]
    simp only [Function.comp_def, hshift, sweep]

/-- Settles O42: the turn's own conditions, and SHAMT = PLANE, which changes where a sweep ends. -/
theorem patchShiftSetsShamt : Obligations.PatchShiftSetsShamt := by
  refine ⟨fun s p => ⟨fun hcreated hhalted hp => ?enabled, fun h => ?waits⟩, ?cycle⟩
  case enabled => exact if_pos (patchEnabled_iff.mpr ⟨hcreated, hhalted, hp⟩)
  case waits =>
    by_cases hshift : ShiftInStep s
    · exact execPatchShift_of_shiftInStep hshift
    · refine if_neg fun henabled => ?_
      obtain ⟨hcreated, hhalted, hp⟩ := patchEnabled_iff.mp henabled
      simp [hcreated, hhalted, hp, hshift] at h
  case cycle =>
    intro half f hpos hle hrun hshift hstart
    have hplane (k : Nat) : (f k).shamt.toNat = (cyclePos half k).2 := by
      have h0 : (f 0).scan.indices = cyclePos half 0 := by simp [hstart, ScanPos.indices, cyclePos]
      have hk := hrun.indices_add hpos hle h0 k
      rw [Nat.zero_add] at hk
      rw [hshift k]
      exact (Prod.mk.inj hk).2
    have hchange (k : Nat) : (f (k + 1)).shamt ≠ (f k).shamt ↔ (k + 1) % half = 0 := by
      rw [← cyclePos_plane_changes, ← hplane, ← hplane, Ne, Ne, BitVec.toNat_inj]
    refine ⟨fun k _ => hchange k, ?_⟩
    simp only [hchange]
    exact countP_sweep_ends hpos 10

end Sys2Proof.Machine
end

section
/-! A whole ingest: the packer works a job off entry by entry, so a full frame's job fills every pixel's word
(spec/40_gamma_ingest.md R75, R77 to R81). -/

namespace Sys2Proof.Machine

variable {s : State}

/-! ### A job worked off -/

theorem runOps_cons {i : Instr} {t : State} (h : exec i s = .next t) (rest : List Instr) :
    runOps (i :: rest) s = runOps rest t := by
  rw [runOps, h]

/-- A pending write the packer can perform, its source unchanged (R81, R146). -/
structure Ready (s : State) (e : PackEntry) : Prop where
  fresh : e.stale = false
  word : e.fbIndex < s.fbWords
  admitted : ∀ a ∈ entryAddresses e, admits s.build a = true

/-- As many packer steps as the job has entries leave each entry's packed pixel in its word, no job and BUSY 0. -/
theorem runOps_packWrite_job (job : List PackEntry) (hpj : s.pj = job) (hbusy : s.status.busy = !job.isEmpty)
    (hready : ∀ e ∈ job, Ready s e) (hdistinct : (job.map PackEntry.fbIndex).Nodup) :
    ∃ t, runOps (List.replicate job.length .packWrite) s = .next t ∧
      t = { s with fb := t.fb, pj := [], status := { s.status with busy := false } } ∧
      (∀ e ∈ job, fbRead e.fbIndex t = entryWord e s) ∧
      ∀ j, j ∉ job.map PackEntry.fbIndex → fbRead j t = fbRead j s := by
  induction job generalizing s with
  | nil =>
    have hbusy : s.status.busy = false := hbusy
    refine ⟨s, rfl, ?_, by simp, fun _ _ => rfl⟩
    rw [← hpj, ← hbusy]
  | cons e rest ih =>
    obtain ⟨hfresh, hword, hadmitted⟩ := hready e List.mem_cons_self
    obtain ⟨hnew, hdistinct⟩ := List.nodup_cons.mp hdistinct
    obtain ⟨u, hstep, hu, hstored, hothers⟩ := exec_packWrite_head hpj hword hadmitted
    have hu : u = { s with fb := u.fb, pj := rest, status := { s.status with busy := !rest.isEmpty } } := by
      rw [hu, hfresh, hbusy]
      cases rest <;> rfl
    have hbuild : u.build = s.build := by rw [hu]
    have hmem : u.mem = s.mem := by rw [hu]
    have hcfg : u.cfg = s.cfg := by rw [hu]
    have hentry (e : PackEntry) : entryWord e u = entryWord e s := by simp only [entryWord, memRead, hbuild, hmem]
    have hready (e' : PackEntry) (he' : e' ∈ rest) : Ready u e' := by
      obtain ⟨hfresh', hword', hadmitted'⟩ := hready e' (List.mem_cons_of_mem _ he')
      refine ⟨hfresh', ?_, fun a ha => hbuild ▸ hadmitted' a ha⟩
      simpa only [State.fbWords, State.width, State.height, hcfg] using hword'
    obtain ⟨t, hrun, ht, hwritten, hkept⟩ := ih (by rw [hu]) (by rw [hu]) hready hdistinct
    refine ⟨t, (runOps_cons hstep _).trans hrun, ?_, fun e' he' => ?_, fun j hj => ?_⟩
    · rw [ht, hu]
    · obtain rfl | he' := List.mem_cons.mp he'
      · rw [hkept _ hnew, hstored, storedWord, hfresh]
        rfl
      · rw [hwritten e' he', hentry]
    · rw [List.map_cons, List.mem_cons, not_or] at hj
      rw [hkept j hj.2, hothers j hj.1]

/-! ### The full frame's job -/

/-- Every pixel of the panel has its entry in a full frame's job (R75, R78). -/
theorem mem_fullFrameJob_of_pixel {base w half x y : Nat} (o : Order) (hx : x < w) (hy : y < 2 * half) :
    ⟨fbIndex w half x y, base, y * w + x, o, false⟩ ∈ fullFrameJob base w half o := by
  have hplace {line : Nat} (hline : line < half) : line * w + x < half * w :=
    Nat.mul_comm half w ▸ linePlace_lt hx hline
  obtain htop | ⟨line, rfl⟩ := row_top_or_bottom half y
  · refine List.mem_flatMap.mpr ⟨y * w + x, List.mem_range.mpr (hplace htop), ?_⟩
    rw [fbIndex_top htop]
    exact List.mem_cons_self
  · refine List.mem_flatMap.mpr ⟨line * w + x, List.mem_range.mpr (hplace (by omega)), ?_⟩
    have hpixel : (half + line) * w + x = line * w + x + half * w := by ring
    rw [fbIndex_bottom, hpixel]
    exact List.mem_cons_of_mem _ List.mem_cons_self

theorem fullFrameJob_length (base w half : Nat) (o : Order) : (fullFrameJob base w half o).length = w * (2 * half) := by
  rw [← List.length_map PackEntry.fbIndex, fullFrameJobWritesEachWordOnce, List.length_range]

/-- The entries of a full frame's job are ready where its source range is admitted. -/
theorem fullFrameJob_ready {base : Nat} {o : Order} (heven : s.height = 2 * s.half)
    (hadmit : ∀ a, base ≤ a → a < base + s.width * s.height * 3 → admits s.build a = true) :
    ∀ e ∈ fullFrameJob base s.width s.half o, Ready s e := by
  intro e he
  have hword : e.fbIndex < s.width * (2 * s.half) := by
    have hmem := List.mem_map_of_mem (f := PackEntry.fbIndex) he
    rwa [fullFrameJobWritesEachWordOnce, List.mem_range] at hmem
  have hpixels := s.halves_le
  obtain ⟨hfresh, hbase, hpixel⟩ : e.stale = false ∧ e.base = base ∧ e.pixel < s.width * s.height := by
    obtain ⟨k, hk, rfl | rfl⟩ := mem_fullFrameJob he
    · exact ⟨rfl, rfl, by simp only; omega⟩
    · exact ⟨rfl, rfl, by simp only; omega⟩
  refine ⟨hfresh, by rwa [State.fbWords, heven], fun a ha => ?_⟩
  obtain ⟨hlo, hhi⟩ := entryAddresses_range hpixel ha
  rw [hbase] at hlo hhi
  exact hadmit a hlo hhi

/-- Settles O29: the command queues an entry for every pixel, and the packer works the job off. -/
theorem fullFrameIngestFillsFrame : Obligations.FullFrameIngestFillsFrame := by
  intro s h hcreated hidle hlen hsrc hadmit c hc
  obtain ⟨hw, hh, heven, _⟩ := h.geometry_bounds hcreated
  have heven : s.height = 2 * s.half := (Nat.mul_div_cancel' (Nat.dvd_of_mod_eq_zero heven)).symm
  have hhalf : 0 < s.half := by omega
  have hpj : s.pj = [] := by
    have hbusy := h.busy
    rw [hidle] at hbusy
    simpa using hbusy
  obtain ⟨job, hjob⟩ : ∃ job, job = fullFrameJob s.srcAddr.toNat s.width s.half c.2 := ⟨_, rfl⟩
  have hlength : job.length = s.width * s.height := by rw [hjob, fullFrameJob_length, heven]
  have hqueued : exec c.1 s = .next (startJob job s) :=
    hjob ▸ fullFrameCommandsQueueJob s (h.notHalted hcreated) hcreated hidle hlen hsrc c hc
  have hdistinct : (job.map PackEntry.fbIndex).Nodup := by
    rw [hjob, fullFrameJobWritesEachWordOnce]
    exact List.nodup_range
  have hnonempty : job ≠ [] := hjob ▸ fullFrameJob_ne_nil hw hhalf
  have hbusy : (startJob job s).status.busy = !job.isEmpty := by
    rw [List.isEmpty_eq_false_iff.mpr hnonempty]
    rfl
  have hready (e : PackEntry) (he : e ∈ job) : Ready (startJob job s) e := by
    rw [hjob] at he
    exact fullFrameJob_ready (s := startJob job s) heven (hlen ▸ hadmit) e he
  obtain ⟨t, hrun, ht, hwritten, _⟩ := runOps_packWrite_job job rfl hbusy hready hdistinct
  refine ⟨t, ?_, ?_, fun x y hx hy => ?_⟩
  · rw [runOps_cons hqueued, ← hlength]
    exact hrun
  · rw [ht, ← hpj, ← hidle]
    rfl
  · refine (hwritten _ (hjob ▸ mem_fullFrameJob_of_pixel c.2 hx (heven ▸ hy))).trans ?_
    cases c.2 <;> rfl

end Sys2Proof.Machine
end

section
/-! Runs without end: under weak fairness the scan path never stays where it is, so every row period ends and the scan
position goes through its cycle for ever (spec/70_reset_and_hazards.md R149, R150, spec/43_scan_stepper.md R107). -/

namespace Sys2Proof.Machine

open Host

/-! ### Moves of a running block -/

section
variable {s t : State} {i : Instr} {p : ScanPosition} {rest : List Input}

theorem PathKept.of_withInput (h : PathKept { s with input := rest } t) : PathKept s t :=
  ⟨h.pixel, h.filler, h.row, h.oedone, h.pending, h.rtx, h.rrx, h.phase, h.scan, h.dtx⟩

theorem PathMoved.of_withInput (h : PathMoved p { s with input := rest } t) : PathMoved p s t := by
  cases h with
  | within hat hnext hrank hscan => exact .within hat hnext (by cases p <;> exact hrank) hscan
  | period hp hat hscan => exact .period hp hat hscan

/-- A path left as it is has as many operations still to take. -/
theorem PathKept.rank_eq (h : PathKept s t) (hbuild : t.build = s.build) (p : ScanPosition) : rank p t = rank p s := by
  cases p <;> simp only [rank, h.pixel, h.filler, hbuild]

/-- What no move of a created block changes (spec/00_scope.md R9, spec/10_state.md R23). -/
theorem Move.build_cfg (hcreated : s.status.created = true) (hm : Move s i t) : t.build = s.build ∧ t.cfg = s.cfg := by
  cases hm with
  | host _ he =>
    cases he with
    | created hc => simp [hcreated] at hc
    | pass | fault | halt | read | badRead | arguments | started | queued => exact ⟨rfl, rfl⟩
  | scan hs => cases hs <;> exact ⟨rfl, rfl⟩
  | pass | packed | patched => exact ⟨rfl, rfl⟩

theorem ScanPosition.operation_mem_agentSteps (p : ScanPosition) : p.operation ∈ agentSteps := by
  cases p <;> decide

end

/-! ### The steps of a run -/

section Fair
variable {turn : Nat → Input} {f : Nat → State} (hfair : FairRun turn f) (h0 : Inv (f 0))
  (hrun0 : (f 0).status.running = true) {k n : Nat} {p : ScanPosition}
include hfair

theorem FairRun.runs (k : Nat) : runInput (turn k) { f k with input := [] } = .next (f (k + 1)) :=
  (step_of_input (s := { f k with input := [turn k] }) rfl).symm.trans (hfair.steps k)

/-- An operation's turn runs it. -/
theorem FairRun.taken {i : Instr} (h : (turn k).takes i) : exec i { f k with input := [] } = .next (f (k + 1)) := by
  obtain ⟨e, hturn, hdecode⟩ := h
  have hruns := hfair.runs k
  rwa [hturn, runInput, runEncoded, hdecode] at hruns

include h0

theorem FairRun.inv (k : Nat) : Inv (f k) := by
  induction k with
  | zero => exact h0
  | succ k ih => exact stepKeepsInvariant _ _ (ih.withInput [turn k]) (hfair.steps k)

include hrun0

omit h0 in
theorem FairRun.running (k : Nat) : (f k).status.running = true := by
  induction k with
  | zero => exact hrun0
  | succ k ih =>
    refine (stickyFlagsStaySet _ _ (hfair.steps k) fun rest hinput => ?_).2.1 ih
    exact hfair.noReset k (List.cons.inj hinput).1

theorem FairRun.build_cfg (k : Nat) : (f (k + 1)).build = (f k).build ∧ (f (k + 1)).cfg = (f k).cfg := by
  have hinv := hfair.inv h0 k
  obtain ⟨i, hm⟩ | ⟨a, v, ht⟩ | ⟨channels, slots, ht⟩ | ⟨hreset, _⟩ := (hinv.withInput []).runInput_cases (hfair.runs k)
  · exact hm.build_cfg (s := { f k with input := [] }) (hinv.running (hfair.running hrun0 k))
  · rw [ht]
    exact ⟨rfl, rfl⟩
  · rw [ht]
    exact ⟨rfl, rfl⟩
  · exact absurd hreset (hfair.noReset k)

theorem FairRun.half_eq (k : Nat) : (f k).half = (f 0).half := by
  induction k with
  | zero => rfl
  | succ k ih => rw [← ih, State.half, State.half, State.height, State.height, (hfair.build_cfg h0 hrun0 k).2]

/-- Each step leaves the path as it is or takes it on. -/
theorem FairRun.path (hat : At p (f k)) : PathKept (f k) (f (k + 1)) ∨ PathMoved p (f k) (f (k + 1)) := by
  have hrun := hfair.running hrun0 k
  have hinv := (hfair.inv h0 k).withInput []
  obtain ⟨i, hm⟩ | ⟨a, v, ht⟩ | ⟨channels, slots, ht⟩ | ⟨hreset, _⟩ := hinv.runInput_cases (hfair.runs k)
  · have hat : At p { f k with input := [] } := hat.congr rfl rfl rfl rfl rfl rfl rfl rfl
    exact (hm.path hinv hrun hat).imp .of_withInput fun hmoved => hmoved.2.of_withInput
  · rw [ht]
    exact .inl ⟨rfl, rfl, rfl, rfl, rfl, rfl, rfl, rfl, rfl, le_rfl⟩
  · rw [ht]
    exact .inl ⟨rfl, rfl, rfl, rfl, rfl, rfl, rfl, rfl, rfl, le_rfl⟩
  · exact absurd hreset (hfair.noReset k)

/-- The enabled operation of the position, taken, takes the path on. -/
theorem FairRun.moved_of_taken (hat : At p (f k)) (henabled : hasStep p.operation (f k) = true)
    (htakes : (turn k).takes p.operation) : PathMoved p (f k) (f (k + 1)) := by
  have hrun := hfair.running hrun0 k
  have hinv := (hfair.inv h0 k).withInput []
  have hat : At p { f k with input := [] } := hat.congr rfl rfl rfl rfl rfl rfl rfl rfl
  have henabled : hasStep p.operation { f k with input := [] } = true := by cases p <;> exact henabled
  exact ((hinv.move_of_exec (hfair.taken htakes)).path_of_operation hinv hrun hat henabled).of_withInput

/-! ### Fairness -/

/-- A path that no step takes on stays as it is. -/
theorem FairRun.kept (hat : At p (f n)) (hstays : ∀ k, n ≤ k → ¬ PathMoved p (f k) (f (k + 1))) :
    ∀ k, n ≤ k → At p (f k) ∧ PathKept (f k) (f (k + 1)) := by
  have next {k : Nat} (hk : n ≤ k) (hat : At p (f k)) : PathKept (f k) (f (k + 1)) :=
    (hfair.path h0 hrun0 hat).resolve_right (hstays k hk)
  intro k hk
  induction k, hk using Nat.le_induction with
  | base => exact ⟨hat, next le_rfl hat⟩
  | succ k hk ih =>
    have hat := ih.2.at ih.1
    exact ⟨hat, next (Nat.le_succ_of_le hk) hat⟩

/-- Such a path never finds room for the word it may have to push: room stays, and with room its operation is enabled
and so taken at last. -/
theorem FairRun.full (hat : At p (f n)) (hstays : ∀ k, n ≤ k → ¬ PathMoved p (f k) (f (k + 1))) :
    ∀ k, n ≤ k → (f k).build.serTxDepth ≤ (f k).dtx.length := by
  have hkept := hfair.kept h0 hrun0 hat hstays
  intro m hm
  by_contra hroom
  have room (k : Nat) (hk : m ≤ k) : (f k).dtx.length < (f k).build.serTxDepth := by
    induction k, hk using Nat.le_induction with
    | base => exact Nat.lt_of_not_le hroom
    | succ k hk ih =>
      rw [(hfair.build_cfg h0 hrun0 k).1]
      exact Nat.lt_of_le_of_lt (hkept k (hm.trans hk)).2.dtx ih
  have henabled (k : Nat) (hk : m ≤ k) : hasStep p.operation (f k) = true :=
    ((hfair.inv h0 k).operation_enabled (hkept k (hm.trans hk)).1).resolve_right
      fun ⟨_, hfull⟩ => absurd hfull (Nat.not_le_of_lt (room k hk))
  obtain ⟨k, hk, htakes⟩ := hfair.fair _ p.operation_mem_agentSteps m henabled
  exact hstays k (hm.trans hk) (hfair.moved_of_taken h0 hrun0 (hkept k (hm.trans hk)).1 (henabled k hk) htakes)

/-- DTX cannot stay full: the data serializer's pop stays enabled, and is taken at last. -/
theorem FairRun.exists_moved_from (hat : At p (f n)) : ∃ k, n ≤ k ∧ PathMoved p (f k) (f (k + 1)) := by
  by_contra hnone
  have hstays (k : Nat) (hk : n ≤ k) : ¬ PathMoved p (f k) (f (k + 1)) := fun hmoved => hnone ⟨k, hk, hmoved⟩
  have hfull := hfair.full h0 hrun0 hat hstays
  have hqueued (k : Nat) (hk : n ≤ k) : 0 < (f k).dtx.length :=
    Nat.lt_of_lt_of_le (hfair.inv h0 k).build.txDepth (hfull k hk)
  obtain ⟨k, hk, htakes⟩ := hfair.fair .serDataPop (by decide) n fun k hk => by
    simpa [hasStep, ← List.length_pos_iff] using hqueued k hk
  obtain ⟨w, rest, hdtx⟩ := List.exists_cons_of_length_pos (hqueued k hk)
  have hpopped : (f (k + 1)).dtx = rest := by
    have hexec := (exec_serDataPop_of_dtx_cons (s := { f k with input := [] }) hdtx).symm.trans (hfair.taken htakes)
    exact (congrArg State.dtx (Outcome.next.inj hexec)).symm
  have hdepth := (hfair.inv h0 k).depth
  have hfull := hfull (k + 1) (Nat.le_succ_of_le hk)
  rw [(hfair.build_cfg h0 hrun0 k).1, hpopped] at hfull
  rw [hdtx, List.length_cons] at hdepth
  omega

/-- The first step that takes the path on finds it as it was. -/
theorem FairRun.exists_moved (hat : At p (f n)) : ∃ k, n ≤ k ∧ rank p (f k) = rank p (f n) ∧
    (f k).scan = (f n).scan ∧ At p (f k) ∧ PathMoved p (f k) (f (k + 1)) := by
  obtain ⟨m, hm, hmoved⟩ := hfair.exists_moved_from h0 hrun0 hat
  obtain ⟨d, rfl⟩ := Nat.exists_eq_add_of_le hm
  induction d generalizing n with
  | zero => exact ⟨n, le_rfl, rfl, rfl, hat, hmoved⟩
  | succ d ih =>
    obtain hkept | hmoved' := hfair.path h0 hrun0 hat
    · have hstart : n + (d + 1) = n + 1 + d := by omega
      rw [hstart] at hmoved
      obtain ⟨k, hk, hrank, hscan, hrest⟩ := ih (hkept.at hat) (Nat.le_add_right _ _) hmoved
      have hbuild := (hfair.build_cfg h0 hrun0 n).1
      exact ⟨k, Nat.le_of_succ_le hk, hrank.trans (hkept.rank_eq hbuild p), hscan.trans hkept.scan, hrest⟩
    · exact ⟨n, le_rfl, rfl, rfl, hat, hmoved'⟩

/-- Every row period ends: each move leaves fewer operations to take, until the sequencer's step begins the next. -/
theorem FairRun.exists_period (hat : At p (f n)) : ∃ k, n ≤ k ∧ At .eventPending (f k) ∧ At .pixelRun (f (k + 1)) ∧
    (f k).scan = (f n).scan ∧ (f (k + 1)).scan = nextScan (f k) := by
  induction hr : rank p (f n) using Nat.strong_induction_on generalizing n p with
  | _ r ih =>
    subst hr
    obtain ⟨k, hk, hrank, hscan, hatk, hmoved⟩ := hfair.exists_moved h0 hrun0 hat
    cases hmoved with
    | within hat' _ hless hsame =>
      obtain ⟨m, hm, hend, hnext, hscan', hnextScan⟩ := ih _ (hrank ▸ hless) hat' rfl
      exact ⟨m, by omega, hend, hnext, hscan'.trans (hsame.trans hscan), hnextScan⟩
    | period hp hnext hnextScan => exact ⟨k, hk, hp ▸ hatk, hnext, hscan, hnextScan⟩

/-! ### The cycle -/

/-- From any point on the run counts on through the cycle. -/
theorem FairRun.exists_indices {c : Nat} (d : Nat) (hc : (f n).scan.indices = cyclePos (f 0).half c) :
    ∃ k, n ≤ k ∧ (f k).scan.indices = cyclePos (f 0).half (c + d) := by
  induction d generalizing n c with
  | zero => exact ⟨n, le_rfl, hc⟩
  | succ d ih =>
    obtain ⟨p, hat, _⟩ := (hfair.inv h0 n).position (hfair.running hrun0 n)
    obtain ⟨k, hk, _, _, hscan, hnext⟩ := hfair.exists_period h0 hrun0 hat
    have hinv := hfair.inv h0 k
    have hcreated := hinv.running (hfair.running hrun0 k)
    have hhalf := hfair.half_eq h0 hrun0 k
    have hc' : (f (k + 1)).scan.indices = cyclePos (f 0).half (c + 1) := by
      rw [hnext, ← hhalf]
      refine nextScan_indices (Nat.zero_lt_of_lt (hinv.row hcreated)) (hinv.half_le hcreated) ?_
      rw [hscan, hc, hhalf]
    obtain ⟨m, hm, hindices⟩ := ih hc'
    exact ⟨m, by omega, by rw [hindices, Nat.add_right_comm, Nat.add_assoc]⟩

end Fair

/-- Every position of the cycle comes after any count of steps. -/
theorem exists_cyclePos_eq {half r p : Nat} (hr : r < half) (hp : p < 10) (c : Nat) :
    ∃ d, cyclePos half (c + d) = (r, p) := by
  have hhalf : 0 < half := Nat.zero_lt_of_lt hr
  have hlater : c ≤ half * (p + 10 * c) + r := by
    have := Nat.le_mul_of_pos_left (p + 10 * c) hhalf
    omega
  obtain ⟨d, hd⟩ := Nat.exists_eq_add_of_le hlater
  refine ⟨d, ?_⟩
  rw [← hd, cyclePos, Nat.mul_add_mod, Nat.mod_eq_of_lt hr, Nat.mul_add_div hhalf, Nat.div_eq_of_lt hr, Nat.add_zero,
    Nat.add_mul_mod_self_left, Nat.mod_eq_of_lt hp]

/-- Settles O52: every row period ends in the sequencer's step, and each of these counts one on in the cycle. -/
theorem fairScanRunsForEver : Obligations.FairScanRunsForEver := by
  intro turn f h0 hrun0 hfair
  refine ⟨fun n => ?periods, fun n r p hr hp => ?positions⟩
  all_goals
    have hinv := hfair.inv h0 n
    have hrun := hfair.running hrun0 n
  case periods =>
    obtain ⟨p, hat, _⟩ := hinv.position hrun
    obtain ⟨k, hk, hend, hnext, _⟩ := hfair.exists_period h0 hrun0 hat
    exact ⟨k, hk, hend, hnext⟩
  case positions =>
    have hindices := indices_eq_cyclePos (hinv.row (hinv.running hrun)) hinv.plane
    rw [hfair.half_eq h0 hrun0 n] at hindices
    obtain ⟨d, hd⟩ := exists_cyclePos_eq hr hp ((f 0).half * (f n).scan.plane.toNat + (f n).scan.row.toNat)
    obtain ⟨k, hk, hreached⟩ := hfair.exists_indices h0 hrun0 d hindices
    exact ⟨k, hk, Prod.mk.inj (hreached.trans hd)⟩

end Sys2Proof.Machine
end
